-- ==== Sys2Proof/Word.lean ====
section
/-! DEFINITION. The words of the codec block: bytes, 16-bit words and byte sequences (rule R9 of 00_scope.md).
Everything computed on them (byte order, search, slices) stands in Sys2Proof/Machine/Bits.lean. -/

namespace Sys2Proof

/-- A byte, 0..255 (R9). -/
abbrev Byte := BitVec 8

/-- A `u16`, 0..65535 (R9). -/
abbrev U16 := BitVec 16

/-- A finite sequence of bytes (R9). -/
abbrev Bytes := List Byte

end Sys2Proof
end

