-- ==== Sys2Proof/Config.lean ====
section
/-! DEFINITION. The open parameters of rule R8 of 00_scope.md: a record that a block is instantiated with, and the
values of the instance that `State.reset` is the reset state of, which are uninterpreted. -/

namespace Sys2Proof

/-- The parameters the source leaves open (R8), fixed when the block is instantiated and written by no operation (R28). -/
structure Params where
  /-- `P_PREFIX[0]` (D4). -/
  prefix0 : Byte
  /-- `P_PREFIX[1]` (D4). -/
  prefix1 : Byte
  /-- `P_RA_BODY[0]` (D5). -/
  raBody0 : Byte
  /-- `P_RA_BODY[1]` (D5). -/
  raBody1 : Byte
  /-- `P_FC_SET`, one function code for all four value commands (D6). -/
  fcSet : Byte
  /-- `P_ADDR_V1` (D7). -/
  addrV1 : Byte
  /-- `P_ADDR_V2` (D7). -/
  addrV2 : Byte
  /-- `P_ADDR_I1` (D7). -/
  addrI1 : Byte
  /-- `P_ADDR_I2` (D7). -/
  addrI2 : Byte
  /-- `P_ADDR_OUT` (D7). -/
  addrOut : Byte
  /-- `P_ADDR_SERPAR`, shared by the serial and the parallel flag (D7). -/
  addrSerPar : Byte
  /-- `P_ACC_CAP`: `none` is unbounded (D13). -/
  accCap : Option Nat
  deriving DecidableEq, Repr

/-- The four value addresses are pairwise distinct (R8, last paragraph). -/
def Params.distinct (P : Params) : Bool :=
  P.addrV1 != P.addrV2 && P.addrV1 != P.addrI1 && P.addrV1 != P.addrI2 &&
  P.addrV2 != P.addrI1 && P.addrV2 != P.addrI2 && P.addrI1 != P.addrI2

/-- `P_PREFIX` of the instance (R8: no normative value). -/
opaque Config.prefixBytes : Byte × Byte

/-- `P_RA_BODY` of the instance (R8: no normative value). -/
opaque Config.raBody : Byte × Byte

/-- `P_FC_SET` of the instance (R8: no normative value). -/
opaque Config.fcSet : Byte

/-- The four value addresses of the instance, as the position of each among the bytes the ones before it left free:
every quadruple of pairwise distinct bytes is one such choice, and no other quadruple is (R8). -/
opaque Config.addrChoice : Fin 256 × Fin 255 × Fin 254 × Fin 253

/-- `P_ADDR_OUT` of the instance (R8: no normative value). -/
opaque Config.addrOut : Byte

/-- `P_ADDR_SERPAR` of the instance (R8: no normative value). -/
opaque Config.addrSerPar : Byte

/-- The second address: a byte other than the first. -/
def Config.secondAddr (a : Fin 256) (b : Fin 255) : Fin 256 := a.succAbove b

/-- The third address: a byte other than the first two. -/
def Config.thirdAddr (a : Fin 256) (b : Fin 255) (c : Fin 254) : Fin 256 := a.succAbove (b.succAbove c)

/-- The fourth address: a byte other than the first three. -/
def Config.fourthAddr (a : Fin 256) (b : Fin 255) (c : Fin 254) (d : Fin 253) : Fin 256 :=
  a.succAbove (b.succAbove (c.succAbove d))

/-- The parameters of the instance: every byte uninterpreted, the value addresses pairwise distinct, `P_ACC_CAP` at
its default, unbounded (R8, D13). DESIGN CHOICE: log entries 1, 2 and 3. -/
def Config.params : Params :=
  let q := Config.addrChoice
  { prefix0 := Config.prefixBytes.1
    prefix1 := Config.prefixBytes.2
    raBody0 := Config.raBody.1
    raBody1 := Config.raBody.2
    fcSet := Config.fcSet
    addrV1 := BitVec.ofFin q.1
    addrV2 := BitVec.ofFin (Config.secondAddr q.1 q.2.1)
    addrI1 := BitVec.ofFin (Config.thirdAddr q.1 q.2.1 q.2.2.1)
    addrI2 := BitVec.ofFin (Config.fourthAddr q.1 q.2.1 q.2.2.1 q.2.2.2)
    addrOut := Config.addrOut
    addrSerPar := Config.addrSerPar
    accCap := none }

end Sys2Proof
end

