-- ==== Sys2Proof/Machine/Bits.lean ====
section
/-! DEFINITION. Bits, byte order and search on byte sequences (rules R9, R10 and R13 of 00_scope.md, R42 and R43 of
20_memory.md). -/

namespace Sys2Proof.Machine

/-- `lo8(v) = v[7:0]` (R10). -/
def lo8 (v : U16) : Byte := v.extractLsb' 0 8

/-- `hi8(v) = v[15:8]` (R10). -/
def hi8 (v : U16) : Byte := v.extractLsb' 8 8

/-- `zext_16(b)`: bits 15..8 are zero (R10). -/
def zext16 (b : Byte) : U16 := b.setWidth 16

/-- `be16(a, b) = (a << 8) OR b`: `a` is the high byte, `b` the low byte (R10). -/
def be16 (a b : Byte) : U16 := (zext16 a <<< 8) ||| zext16 b

/-- `v[i]` of a byte, bit 0 the least significant (R10). -/
def bitOf (v : Byte) (i : Nat) : Bool := v.getLsbD i

/-- `s[i]` (R9), which the spec defines for `i < len(s)` only: every use in the model stands behind that test, and the
value given here beyond it is never read. -/
def byteAt (s : Bytes) (i : Nat) : Byte := s.getD i 0

/-- `s[a..b)` (R9): empty when `a >= b`. -/
def slice (s : Bytes) (a b : Nat) : Bytes := (s.take b).drop a

/-- `find(s, b)`: the least offset of `b` in `s`, or none (R13). -/
def find (s : Bytes) (b : Byte) : Option Nat := s.findIdx? (· == b)

/-- The big-endian `u16` field at offsets `o, o+1` (R42). -/
def u16At (f : Bytes) (o : Nat) : U16 := be16 (byteAt f o) (byteAt f (o + 1))

/-- The embedded CRC of a frame, little-endian just before the end marker (R43). -/
def embeddedCrc (f : Bytes) : U16 := be16 (byteAt f (f.length - 2)) (byteAt f (f.length - 3))

end Sys2Proof.Machine
end

