-- ==== Sys2Proof/Machine/Constants.lean ====
section
/-! DEFINITION. The constants the source fixes (rule R7 of 00_scope.md), each under a name of its own, because the
source's numeric literals are unaudited. -/

namespace Sys2Proof.Machine

/-- `START`, first byte of every frame (R7). -/
def startMarker : Byte := 0xF7

/-- `END`, last byte of every frame (R7). -/
def endMarker : Byte := 0xFD

/-- `CRC_INIT` (R7). -/
def crcInit : U16 := 0xFFFF

/-- `CRC_POLY`, the feedback constant of the right-shifting form (R7). There is no final XOR. -/
def crcPoly : U16 := 0xA001

/-- `FC_FLAG`, the function code of the set-flag commands (R7). -/
def fcFlag : Byte := 0x0A

/-- `LEN_FIELD`, the "length=1" byte of every set command (R7). -/
def lenField : Byte := 0x01

/-- `MIN_VALID_LEN` (R7). -/
def minValidLen : Nat := 6

/-- `RSP_LEN`, the length of the read-all response (R7). -/
def rspLen : Nat := 26

/-- `RA_LEN`, the length of the read-all command (R7; 90_conflicts.md C1). -/
def raLen : Nat := 8

/-- `SET_LEN`, the length of every set command (R7). -/
def setLen : Nat := 11

/-- `SCALE_V`, the decimal digits of every voltage (R7). -/
def scaleV : Nat := 2

/-- `SCALE_I`, the decimal digits of every current (R7). -/
def scaleI : Nat := 3

/-- `VAL_MAX`, the largest encodable raw value (R7). -/
def valMax : Int := 65535

end Sys2Proof.Machine
end

