-- ==== Sys2Proof/Syntax.lean ====
section
/-! DEFINITION. The operations and wire formats of spec/opcode_table.json, one constructor of `Instr` a row, and the
two forms in which they reach the block: a request on the command interface (rule R60 of 30_encoding.md) and a frame
that arrives on the line (rules R63 to R70). -/

namespace Sys2Proof

/-- An exact decimal `m × 10^-e` (R11). -/
structure Decimal where
  /-- The integer `m`. -/
  m : Int
  /-- The exponent `e`. -/
  e : Nat
  deriving DecidableEq, Repr

/-- The variable bytes of a read-all response, in wire order (R69). -/
structure RspFields where
  /-- Offset 1, echoed header. -/
  h0 : Byte
  /-- Offset 2, echoed header. -/
  h1 : Byte
  /-- Offset 3, echoed header. -/
  h2 : Byte
  /-- Offset 4, echoed header. -/
  h3 : Byte
  /-- Offset 5, channel-2 status bits. -/
  st2 : Byte
  /-- Offset 6, channel-1 status bits. -/
  st1 : Byte
  /-- Offsets 7, 8. -/
  ch2MV : U16
  /-- Offsets 9, 10. -/
  ch2MI : U16
  /-- Offsets 11, 12. -/
  ch1MV : U16
  /-- Offsets 13, 14. -/
  ch1MI : U16
  /-- Offsets 15, 16. -/
  ch2SV : U16
  /-- Offsets 17, 18. -/
  ch2SI : U16
  /-- Offsets 19, 20. -/
  ch1SV : U16
  /-- Offsets 21, 22. -/
  ch1SI : U16
  /-- Offset 23. -/
  crcLo : Byte
  /-- Offset 24. -/
  crcHi : Byte
  deriving DecidableEq, Repr

/-- The rows of spec/opcode_table.json: the thirteen operations of R61 with their operands (R62), and the nine wire
formats of R66, R67 and R69 with the bytes their bit patterns leave variable. A channel is a natural number, so that
a request outside {1, 2} can be presented (R78). -/
inductive Instr where
  /-- `CRC16 s, n` (R101). -/
  | crc16 (s : Bytes) (n : Nat)
  /-- `ENC.READALL` (R112). -/
  | encReadall
  /-- `ENC.SETV ch, v` (R113). -/
  | encSetv (ch : Nat) (v : Decimal)
  /-- `ENC.SETI ch, v` (R114). -/
  | encSeti (ch : Nat) (v : Decimal)
  /-- `ENC.SETOUT b` (R115). -/
  | encSetout (b : Bool)
  /-- `ENC.SETSER b` (R116). -/
  | encSetser (b : Bool)
  /-- `ENC.SETPAR b` (R117). -/
  | encSetpar (b : Bool)
  /-- `VALIDATE f` (R140). -/
  | validate (f : Bytes)
  /-- `PARSE f` (R143). -/
  | parse (f : Bytes)
  /-- `X.PUSH c` (R170). -/
  | xPush (c : Bytes)
  /-- `X.POP` (R171). -/
  | xPop
  /-- `RX.STEP c` (R190). -/
  | rxStep (c : Bytes)
  /-- `RESET` (R231). -/
  | reset
  /-- `WIRE.READALL`, format F-RA (R66): `p`, `b` and the CRC bytes. -/
  | wireReadall (p0 p1 b0 b1 crcLo crcHi : Byte)
  /-- `WIRE.SETV1`, format F-SET (R67, R68). -/
  | wireSetv1 (p0 p1 fc addr valHi valLo crcLo crcHi : Byte)
  /-- `WIRE.SETV2`, format F-SET (R67, R68). -/
  | wireSetv2 (p0 p1 fc addr valHi valLo crcLo crcHi : Byte)
  /-- `WIRE.SETI1`, format F-SET (R67, R68). -/
  | wireSeti1 (p0 p1 fc addr valHi valLo crcLo crcHi : Byte)
  /-- `WIRE.SETI2`, format F-SET (R67, R68). -/
  | wireSeti2 (p0 p1 fc addr valHi valLo crcLo crcHi : Byte)
  /-- `WIRE.SETOUT`, format F-SET with function code `0x0A` (R67, R68). -/
  | wireSetout (p0 p1 addr : Byte) (x : Bool) (crcLo crcHi : Byte)
  /-- `WIRE.SETSER`, format F-SET with function code `0x0A` (R67, R68). -/
  | wireSetser (p0 p1 addr : Byte) (x : Bool) (crcLo crcHi : Byte)
  /-- `WIRE.SETPAR`, format F-SET with function code `0x0A` (R67, R68). -/
  | wireSetpar (p0 p1 addr : Byte) (x : Bool) (crcLo crcHi : Byte)
  /-- `WIRE.RSP`, format F-RSP (R69). -/
  | wireRsp (r : RspFields)
  deriving DecidableEq, Repr

/-- A request on the command interface: an 8-bit operation code and the operands as typed values, not as bytes (R60).
One field per operand type of R61; an operation reads the ones it takes (log entry 8). -/
structure Request where
  /-- The operation code `OP`. -/
  op : Byte
  /-- `s`, `f` or `c`: the byte-sequence operand. -/
  bytes : Bytes := []
  /-- `n` of CRC16. -/
  n : Nat := 0
  /-- `ch` of ENC.SETV and ENC.SETI. -/
  ch : Nat := 1
  /-- `v` of ENC.SETV and ENC.SETI. -/
  v : Decimal := ⟨0, 0⟩
  /-- `b` of the flag commands. -/
  b : Bool := false
  deriving DecidableEq, Repr

/-- What the host presents to the block, one at a time (R60, R216): a request, or a frame the transport delivers. -/
inductive HostEvent where
  /-- An operation request. -/
  | request (r : Request)
  /-- The bytes of one transport read, offered as one wire frame (log entry 10). -/
  | frame (f : Bytes)
  deriving DecidableEq, Repr

end Sys2Proof
end

