-- ==== Sys2Proof/Decode.lean ====
section
/-! DEFINITION. The decoder, from what the host presents to an instruction, rejecting by name, and the encoder back
(rules R61 and R63 to R70 of 30_encoding.md). -/

namespace Sys2Proof

open Machine

/-- Why the decoder gives no instruction. -/
inductive DecodeError where
  /-- The operation code is unassigned (R77). -/
  | illegalOp (op : Byte)
  /-- The frame's length is none of 8, 11 and 26 (R75). -/
  | frameLength (n : Nat)
  /-- The frame does not begin with the start marker (R63). -/
  | noStart
  /-- The frame does not end with the end marker (R63). -/
  | noEnd
  /-- An 11-byte frame whose byte at offset 5 is not `LEN_FIELD` (R67). -/
  | lengthField (b : Byte)
  /-- An 11-byte frame whose function code, address and value are those of no set command (R68). -/
  | noCommand (fc addr valHi valLo : Byte)
  deriving DecidableEq, Repr

/-- The operation codes of R61; every other code is unassigned (R77). -/
def decodeRequest (r : Request) : Except DecodeError Instr :=
  if r.op = 0x01 then .ok (.crc16 r.bytes r.n)
  else if r.op = 0x10 then .ok .encReadall
  else if r.op = 0x11 then .ok (.encSetv r.ch r.v)
  else if r.op = 0x12 then .ok (.encSeti r.ch r.v)
  else if r.op = 0x13 then .ok (.encSetout r.b)
  else if r.op = 0x14 then .ok (.encSetser r.b)
  else if r.op = 0x15 then .ok (.encSetpar r.b)
  else if r.op = 0x20 then .ok (.validate r.bytes)
  else if r.op = 0x21 then .ok (.parse r.bytes)
  else if r.op = 0x30 then .ok (.xPush r.bytes)
  else if r.op = 0x31 then .ok .xPop
  else if r.op = 0x32 then .ok (.rxStep r.bytes)
  else if r.op = 0x3F then .ok .reset
  else .error (.illegalOp r.op)

/-- The command of an 11-byte frame, found by its function code, address and value in the order of R68's table (log
entry 11 for parameters that make two rows agree; R120 for the two "false" commands that are the same bytes). -/
def decodeSet (P : Params) (p0 p1 fc addr valHi valLo crcLo crcHi : Byte) : Except DecodeError Instr :=
  if fc = P.fcSet ∧ addr = P.addrV1 then .ok (.wireSetv1 p0 p1 fc addr valHi valLo crcLo crcHi)
  else if fc = P.fcSet ∧ addr = P.addrV2 then .ok (.wireSetv2 p0 p1 fc addr valHi valLo crcLo crcHi)
  else if fc = P.fcSet ∧ addr = P.addrI1 then .ok (.wireSeti1 p0 p1 fc addr valHi valLo crcLo crcHi)
  else if fc = P.fcSet ∧ addr = P.addrI2 then .ok (.wireSeti2 p0 p1 fc addr valHi valLo crcLo crcHi)
  else if fc = fcFlag ∧ addr = P.addrOut ∧ valHi = 0x00 ∧ (valLo = 0x00 ∨ valLo = 0x01) then
    .ok (.wireSetout p0 p1 addr (valLo == 0x01) crcLo crcHi)
  else if fc = fcFlag ∧ addr = P.addrSerPar ∧ valHi = 0x00 ∧ (valLo = 0x00 ∨ valLo = 0x01) then
    .ok (.wireSetser p0 p1 addr (valLo == 0x01) crcLo crcHi)
  else if fc = fcFlag ∧ addr = P.addrSerPar ∧ valHi = 0x00 ∧ valLo = 0x02 then
    .ok (.wireSetpar p0 p1 addr true crcLo crcHi)
  else .error (.noCommand fc addr valHi valLo)

/-- The response fields of a 26-byte frame (R69). -/
def rspFieldsOf (f : Bytes) : RspFields :=
  { h0 := byteAt f 1, h1 := byteAt f 2, h2 := byteAt f 3, h3 := byteAt f 4
    st2 := byteAt f 5, st1 := byteAt f 6
    ch2MV := u16At f 7, ch2MI := u16At f 9, ch1MV := u16At f 11, ch1MI := u16At f 13
    ch2SV := u16At f 15, ch2SI := u16At f 17, ch1SV := u16At f 19, ch1SI := u16At f 21
    crcLo := byteAt f 23, crcHi := byteAt f 24 }

/-- The wire format a frame has: by its markers and its length (R63, R75), the set commands by their bytes (R68). It
reads no CRC: that is `Instr.wf` and VALIDATE. -/
def decodeFrame (P : Params) (f : Bytes) : Except DecodeError Instr :=
  if byteAt f 0 ≠ startMarker then .error .noStart
  else if byteAt f (f.length - 1) ≠ endMarker then .error .noEnd
  else if f.length = raLen then
    .ok (.wireReadall (byteAt f 1) (byteAt f 2) (byteAt f 3) (byteAt f 4) (byteAt f 5) (byteAt f 6))
  else if f.length = setLen then
    if byteAt f 5 ≠ lenField then .error (.lengthField (byteAt f 5))
    else decodeSet P (byteAt f 1) (byteAt f 2) (byteAt f 3) (byteAt f 4) (byteAt f 6) (byteAt f 7) (byteAt f 8)
      (byteAt f 9)
  else if f.length = rspLen then .ok (.wireRsp (rspFieldsOf f))
  else .error (.frameLength f.length)

/-- The instruction that what the host presents stands for, on a block with parameters `P`. -/
def decode (P : Params) : HostEvent → Except DecodeError Instr
  | .request r => decodeRequest r
  | .frame f => decodeFrame P f

/-- The bytes of a set command (R67). -/
def setBytes (p0 p1 fc addr valHi valLo crcLo crcHi : Byte) : Bytes :=
  [startMarker, p0, p1, fc, addr, lenField, valHi, valLo, crcLo, crcHi, endMarker]

/-- `VAL_LO` of the output and serial commands (R72). -/
def flagByte (x : Bool) : Byte := if x then 0x01 else 0x00

/-- `VAL_LO` of the parallel command, `0x02` and not `0x01` for true (R72). -/
def parallelByte (x : Bool) : Byte := if x then 0x02 else 0x00

/-- The 26 bytes of a response (R69), every value field big-endian (R42). -/
def rspBytes (r : RspFields) : Bytes :=
  [startMarker, r.h0, r.h1, r.h2, r.h3, r.st2, r.st1,
    hi8 r.ch2MV, lo8 r.ch2MV, hi8 r.ch2MI, lo8 r.ch2MI, hi8 r.ch1MV, lo8 r.ch1MV, hi8 r.ch1MI, lo8 r.ch1MI,
    hi8 r.ch2SV, lo8 r.ch2SV, hi8 r.ch2SI, lo8 r.ch2SI, hi8 r.ch1SV, lo8 r.ch1SV, hi8 r.ch1SI, lo8 r.ch1SI,
    r.crcLo, r.crcHi, endMarker]

/-- The encoder: the request with the operation's code (R61), or the frame with the format's bytes (R66 to R69). -/
def encode : Instr → HostEvent
  | .crc16 s n => .request { op := 0x01, bytes := s, n := n }
  | .encReadall => .request { op := 0x10 }
  | .encSetv ch v => .request { op := 0x11, ch := ch, v := v }
  | .encSeti ch v => .request { op := 0x12, ch := ch, v := v }
  | .encSetout b => .request { op := 0x13, b := b }
  | .encSetser b => .request { op := 0x14, b := b }
  | .encSetpar b => .request { op := 0x15, b := b }
  | .validate f => .request { op := 0x20, bytes := f }
  | .parse f => .request { op := 0x21, bytes := f }
  | .xPush c => .request { op := 0x30, bytes := c }
  | .xPop => .request { op := 0x31 }
  | .rxStep c => .request { op := 0x32, bytes := c }
  | .reset => .request { op := 0x3F }
  | .wireReadall p0 p1 b0 b1 cl ch => .frame [startMarker, p0, p1, b0, b1, cl, ch, endMarker]
  | .wireSetv1 p0 p1 fc a vh vl cl ch => .frame (setBytes p0 p1 fc a vh vl cl ch)
  | .wireSetv2 p0 p1 fc a vh vl cl ch => .frame (setBytes p0 p1 fc a vh vl cl ch)
  | .wireSeti1 p0 p1 fc a vh vl cl ch => .frame (setBytes p0 p1 fc a vh vl cl ch)
  | .wireSeti2 p0 p1 fc a vh vl cl ch => .frame (setBytes p0 p1 fc a vh vl cl ch)
  | .wireSetout p0 p1 a x cl ch => .frame (setBytes p0 p1 fcFlag a 0x00 (flagByte x) cl ch)
  | .wireSetser p0 p1 a x cl ch => .frame (setBytes p0 p1 fcFlag a 0x00 (flagByte x) cl ch)
  | .wireSetpar p0 p1 a x cl ch => .frame (setBytes p0 p1 fcFlag a 0x00 (parallelByte x) cl ch)
  | .wireRsp r => .frame (rspBytes r)

/-- The bytes of a wire format; an operation has none, its operands being typed values (R60). -/
def Instr.frameBytes (i : Instr) : Option Bytes :=
  match encode i with
  | .request _ => none
  | .frame f => some f

/-- `k` bytes of a number, the least significant byte first: the first byte of a frame is bits 7..0. -/
def bytesOfNat : Nat → Nat → Bytes
  | 0, _ => []
  | k + 1, w => BitVec.ofNat 8 w :: bytesOfNat k (w / 256)

/-- What the host presents for a word of spec/opcode_table.json: an 8-bit word is an operation code, with every
operand at its default (log entry 8); a longer word is a frame (log entry 13). -/
def tableEvent (nbits w : Nat) : HostEvent :=
  if nbits ≤ 8 then .request { op := BitVec.ofNat 8 w } else .frame (bytesOfNat (nbits / 8) w)

/-- The instruction the decoder reads from a word of spec/opcode_table.json, on the instance `State.reset` is of. -/
def decodeTableWord (nbits w : Nat) : Option Instr :=
  match decode Config.params (tableEvent nbits w) with
  | .ok i => some i
  | .error _ => none

end Sys2Proof
end

