-- ==== Sys2Proof/Machine/Crc.lean ====
section
/-! DEFINITION. The CRC engine's computation (rules R100 and R101 of 40_crc.md). The working register `crc_acc` (R25)
is the value folded along the bytes: it does not survive the computation. -/

namespace Sys2Proof.Machine

/-- One of the eight rounds: bit 0 is tested before the logical right shift (R100). -/
def crcRound (acc : U16) : U16 :=
  if acc.getLsbD 0 then (acc >>> 1) ^^^ crcPoly else acc >>> 1

/-- `k` rounds. -/
def crcRounds : Nat → U16 → U16
  | 0, acc => acc
  | k + 1, acc => crcRounds k (crcRound acc)

/-- `crc_update(acc, b)` (R100). -/
def crcUpdate (acc : U16) (b : Byte) : U16 := crcRounds 8 (acc ^^^ zext16 b)

/-- `crc16(s, n)` for `n <= len(s)` (R101): the CRC of the first `n` bytes. A request with a larger `n` never reaches
it (`execCrc16`), and every use inside the block passes `n <= len(s)`. -/
def crc16 (s : Bytes) (n : Nat) : U16 := (s.take n).foldl crcUpdate crcInit

end Sys2Proof.Machine
end

