-- ==== Sys2Proof/Machine/Flags.lean ====
section
/-! DEFINITION. The flags of a read-all response, read from its two status bytes (rules R70 and R74 of
30_encoding.md). The block itself has no flags or condition codes (rule R27 of 10_state.md). -/

namespace Sys2Proof.Machine

/-- `CV` of a channel: bit 0 of its status byte (R70). -/
def constantVoltage (st : Byte) : Bool := bitOf st 0

/-- `CC` of a channel: bit 1 of its status byte (R70). -/
def constantCurrent (st : Byte) : Bool := bitOf st 1

/-- `SERIAL`: bit 2 of the channel-2 status byte (R70). -/
def serialFlag (st2 : Byte) : Bool := bitOf st2 2

/-- `PARALLEL`: bit 3 of the channel-2 status byte (R70). -/
def parallelFlag (st2 : Byte) : Bool := bitOf st2 3

/-- `OUTPUT`: bit 5 of the channel-2 status byte (R70). -/
def outputFlag (st2 : Byte) : Bool := bitOf st2 5

end Sys2Proof.Machine
end

