-- ==== Sys2Proof/Machine/Values.lean ====
section
/-! DEFINITION. The values operations return: fixed-point numbers, snapshots, errors, model faults and results (rules
R11 and R12 of 00_scope.md, R141 of 42_decode.md, R200 of 60_exceptions.md). -/

namespace Sys2Proof.Machine

/-- `Fixed(raw, k)`: the exact decimal `raw × 10^-k` (R11). -/
structure Fixed where
  /-- The `u16` mantissa. -/
  raw : U16
  /-- The number of fractional digits. -/
  digits : Nat
  deriving DecidableEq, Repr

/-- The fifteen fields of a snapshot, in the order of their identifiers 0 to 14 (R141). -/
structure Snapshot where
  /-- 0, channel-1 measured voltage. -/
  ch1MV : Fixed
  /-- 1, channel-1 measured current. -/
  ch1MI : Fixed
  /-- 2, channel-1 set voltage. -/
  ch1SV : Fixed
  /-- 3, channel-1 set current. -/
  ch1SI : Fixed
  /-- 4, channel-1 constant-voltage. -/
  ch1CV : Bool
  /-- 5, channel-1 constant-current. -/
  ch1CC : Bool
  /-- 6, channel-2 measured voltage. -/
  ch2MV : Fixed
  /-- 7, channel-2 measured current. -/
  ch2MI : Fixed
  /-- 8, channel-2 set voltage. -/
  ch2SV : Fixed
  /-- 9, channel-2 set current. -/
  ch2SI : Fixed
  /-- 10, channel-2 constant-voltage. -/
  ch2CV : Bool
  /-- 11, channel-2 constant-current. -/
  ch2CC : Bool
  /-- 12, output enabled (device-wide). -/
  output : Bool
  /-- 13, serial-link mode (device-wide). -/
  serial : Bool
  /-- 14, parallel mode (device-wide). -/
  parallel : Bool
  deriving DecidableEq, Repr

/-- One field's value: a fixed-point number or a flag (R141). -/
inductive FieldValue where
  /-- A measured or set quantity. -/
  | fixed (x : Fixed)
  /-- A flag. -/
  | flag (b : Bool)
  deriving DecidableEq, Repr

/-- The reasons of `EncodingError` (R200). -/
inductive EncodingReason where
  /-- `PRECISION`: more fractional digits than the scale. -/
  | precision
  /-- `RANGE`: outside 0..65535. -/
  | range
  deriving DecidableEq, Repr

/-- The reasons of `ParseError` (R200). -/
inductive ParseReason where
  /-- `SHORT`: fewer than 26 bytes. -/
  | short
  /-- `START`: the first byte is not the start marker. -/
  | start
  /-- `END`: the last byte is not the end marker. -/
  | noEnd
  deriving DecidableEq, Repr

/-- The model faults: requests the source gives no meaning (R204). -/
inductive ModelFault where
  /-- `IllegalOp`: an unassigned operation code (R77). -/
  | illegalOp
  /-- `IllegalOperand`: a channel other than 1 and 2 (R78). -/
  | illegalOperand
  /-- `CrcLengthRange`: CRC16 of more bytes than there are (R101). -/
  | crcLengthRange
  /-- `AccOverflow`: a chunk that would exceed a finite `P_ACC_CAP` (R55). -/
  | accOverflow
  deriving DecidableEq, Repr

/-- What an operation returns: `ok(v)`, an architected error or a model fault (R12). -/
inductive Result where
  /-- A value of CRC16. -/
  | crc (v : U16)
  /-- A frame of an ENC.* operation: the block's transmit output (R60). -/
  | frame (f : Bytes)
  /-- A verdict of VALIDATE. -/
  | verdict (b : Bool)
  /-- A snapshot of PARSE. -/
  | snapshot (s : Snapshot)
  /-- No value: X.PUSH and RESET. -/
  | done
  /-- A candidate of X.POP, or `NONE`. -/
  | candidate (c : Option Bytes)
  /-- The snapshots of RX.STEP: the block's receive output (R60). -/
  | snapshots (l : List Snapshot)
  /-- `err(EncodingError, reason)`. -/
  | encodingError (r : EncodingReason)
  /-- `err(ParseError, reason)`. -/
  | parseError (r : ParseReason)
  /-- `fault(F)`. -/
  | fault (f : ModelFault)
  deriving DecidableEq, Repr

end Sys2Proof.Machine
end

