-- ==== Sys2Proof/Machine/Operands.lean ====
section
/-! DEFINITION. Operand forms: the conversion of a setter's decimal to the integer on the wire, and the fixed-point
value fields of a response (rules R71 and R73 of 30_encoding.md, R111 of 41_encode.md, R142 of 42_decode.md). -/

namespace Sys2Proof.Machine

/-- `to_raw(v, k)` (R111): exact integer arithmetic, the precision test before the range test. -/
def toRaw (v : Decimal) (k : Nat) : Except EncodingReason U16 :=
  let q : Int := v.m * (10 : Int) ^ k
  let d : Int := (10 : Int) ^ v.e
  if q % d ≠ 0 then .error .precision
  else if q / d < 0 ∨ q / d > valMax then .error .range
  else .ok (BitVec.ofInt 16 (q / d))

/-- A voltage field: big-endian, two fractional digits (R73). -/
def voltageAt (f : Bytes) (o : Nat) : Fixed := ⟨u16At f o, scaleV⟩

/-- A current field: big-endian, three fractional digits (R73). -/
def currentAt (f : Bytes) (o : Nat) : Fixed := ⟨u16At f o, scaleI⟩

/-- The exact rational a `Decimal` denotes (R11). -/
def decimalValue (v : Decimal) : ℚ := (v.m : ℚ) / (10 : ℚ) ^ v.e

/-- The exact rational a `Fixed` denotes (R11, R142). -/
def fixedValue (x : Fixed) : ℚ := (x.raw.toNat : ℚ) / (10 : ℚ) ^ x.digits

end Sys2Proof.Machine
end

