-- ==== Sys2Proof/Machine/State.lean ====
section
/-! DEFINITION. The state of the block: `ACC` and `RUN` (rule R24 of 10_state.md), the parameters it is instantiated
with (R28, R32), and the host's side of the command interface (rules R216 and R217 of 60_exceptions.md). -/

namespace Sys2Proof.Machine

/-- `RUN` (R23). -/
inductive Run where
  /-- The block performs requests. -/
  | running
  /-- A request had no meaning; never left once entered. -/
  | faulted (f : ModelFault)
  deriving DecidableEq, Repr

/-- Why a step ends the run. -/
inductive Fault where
  /-- No operation has a step once `RUN` is `Faulted(F)`, RESET included (R204). Raised by every meaning, by the
  answer to an unassigned code and by the step itself. Safe: the machine stops where the spec gives it no step. -/
  | noStep (f : ModelFault)
  deriving DecidableEq, Repr

/-- Why an instruction has no meaning. -/
inductive Refusal where
  /-- The instruction is not modelled yet. Raised by no arm of the dispatch at present. Safe. -/
  | notModelled (mnemonic : String)
  deriving DecidableEq, Repr

/-- The machine's state, plain data. -/
structure State where
  /-- The parameters, fixed at instantiation (R8, R28). -/
  params : Params
  /-- `ACC` (R22). -/
  acc : Bytes
  /-- `RUN` (R23). -/
  run : Run
  /-- What the host still presents, oldest first (R217; log entry 5: the model's own field). -/
  pending : List HostEvent
  /-- The results returned so far, in request order (R217; log entry 6: the model's own field). -/
  results : List Result
  deriving DecidableEq, Repr

/-- A block instantiated with parameters `P`: the reset state (R230, R32), nothing presented to it yet. -/
def State.instantiate (P : Params) : State :=
  { params := P, acc := [], run := .running, pending := [], results := [] }

/-- The machine right after reset (R32, R230). -/
def State.reset : State := State.instantiate Config.params

end Sys2Proof.Machine
end

