-- ==== Sys2Proof/Machine/Ops.lean ====
section
/-! DEFINITION. The shared operations: how an operation ends (a result, a model fault, no step), frames, the
validator, the parser, the accumulator and the receive loop, and what the step takes from the host. -/

namespace Sys2Proof.Machine

/-- An operation has a step only while `RUN` is `Running` (R204). -/
def whenRunning (s : State) (next : State) : Host.Outcome State Fault Refusal :=
  match s.run with
  | .running => .next next
  | .faulted f => .fault (.noStep f)

/-- An operation returns its result (R12); nothing else of the state changes. -/
def record (r : Result) (s : State) : State := { s with results := s.results ++ [r] }

/-- The accumulator replaced: `ACC <- a` (R13). -/
def withAcc (a : Bytes) (s : State) : State := { s with acc := a }

/-- A model fault, the one thing like an exception the block has: `RUN <- Faulted(F)`, the result is `fault(F)`, no
other change of state, nothing emitted (R204). There is no return from it (R208). -/
def enterFault (f : ModelFault) (s : State) : State := { record (.fault f) s with run := .faulted f }

/-- `mkframe(body)` (R110). -/
def mkframe (body : Bytes) : Bytes :=
  let c := crc16 body body.length
  body ++ [lo8 c, hi8 c, endMarker]

/-- The read-all command's frame (R112). -/
def readallFrame (P : Params) : Bytes := mkframe [startMarker, P.prefix0, P.prefix1, P.raBody0, P.raBody1]

/-- A set command's frame (R113 to R117). -/
def setFrame (P : Params) (fc addr valHi valLo : Byte) : Bytes :=
  mkframe [startMarker, P.prefix0, P.prefix1, fc, addr, lenField, valHi, valLo]

/-- A value command (R113, R114): the channel is checked, then the decimal is converted, then the frame is emitted. -/
def valueCommand (ch : Nat) (v : Decimal) (scale : Nat) (addr1 addr2 : Byte) (s : State) : State :=
  if ch = 1 ∨ ch = 2 then
    match toRaw v scale with
    | .error e => record (.encodingError e) s
    | .ok raw =>
      record (.frame (setFrame s.params s.params.fcSet (if ch = 1 then addr1 else addr2) (hi8 raw) (lo8 raw))) s
  else enterFault .illegalOperand s

/-- A flag command (R115 to R117). -/
def flagCommand (addr valLo : Byte) (s : State) : State :=
  record (.frame (setFrame s.params fcFlag addr 0x00 valLo)) s

/-- The verdict of VALIDATE (R140). -/
def validateFrame (f : Bytes) : Bool :=
  if f.length < minValidLen then false
  else if byteAt f 0 ≠ startMarker then false
  else if byteAt f (f.length - 1) ≠ endMarker then false
  else embeddedCrc f == crc16 f (f.length - 3)

/-- The fifteen fields at their offsets (R141). -/
def snapshotOf (f : Bytes) : Snapshot :=
  { ch1MV := voltageAt f 11, ch1MI := currentAt f 13
    ch1SV := voltageAt f 19, ch1SI := currentAt f 21
    ch1CV := constantVoltage (byteAt f 6), ch1CC := constantCurrent (byteAt f 6)
    ch2MV := voltageAt f 7, ch2MI := currentAt f 9
    ch2SV := voltageAt f 15, ch2SI := currentAt f 17
    ch2CV := constantVoltage (byteAt f 5), ch2CC := constantCurrent (byteAt f 5)
    output := outputFlag (byteAt f 5), serial := serialFlag (byteAt f 5), parallel := parallelFlag (byteAt f 5) }

/-- PARSE (R143): length, first byte, last byte, in that order; the CRC is not read (R144). -/
def parseFrame (f : Bytes) : Except ParseReason Snapshot :=
  if f.length < rspLen then .error .short
  else if byteAt f 0 ≠ startMarker then .error .start
  else if byteAt f (f.length - 1) ≠ endMarker then .error .noEnd
  else .ok (snapshotOf f)

/-- `len(ACC) + len(c)` may not exceed a finite `P_ACC_CAP` (R55). -/
def fits (cap : Option Nat) (acc c : Bytes) : Bool :=
  match cap with
  | none => true
  | some n => decide (acc.length + c.length ≤ n)

/-- The six steps of X.POP (R171): the candidate or none, and the accumulator left. -/
def popAcc (acc : Bytes) : Option Bytes × Bytes :=
  match find acc startMarker with
  | none => (none, [])
  | some i =>
    let a := slice acc i acc.length
    match find a endMarker with
    | none => (none, a)
    | some j => (some (slice a 0 (j + 1)), slice a (j + 1) a.length)

/-- `is_readall_shape(f)` (R191). -/
def isReadallShape (f : Bytes) : Bool := f.length == rspLen

/-- What the receive path makes of a candidate: a snapshot, or nothing when it is dropped (R190, R192). PARSE does not
fail on a candidate that passes the two tests (R193). -/
def receiveCandidate (cand : Bytes) : Option Snapshot :=
  if validateFrame cand && isReadallShape cand then
    match parseFrame cand with
    | .ok snap => some snap
    | .error _ => none
  else none

/-- The loop of RX.STEP, at most `k` pops (R190): the snapshots in order, and the accumulator left. -/
def rxDrain : Nat → Bytes → List Snapshot × Bytes
  | 0, acc => ([], acc)
  | k + 1, acc =>
    match popAcc acc with
    | (none, rest) => ([], rest)
    | (some cand, rest) =>
      let r := rxDrain k rest
      ((receiveCandidate cand).toList ++ r.1, r.2)

/-- X.PUSH (R170): the chunk appended, or `AccOverflow` before any change. -/
def pushChunk (c : Bytes) (s : State) : State :=
  if fits s.params.accCap s.acc c then record .done (withAcc (s.acc ++ c) s) else enterFault .accOverflow s

/-- RX.STEP (R190). One pop more than there are bytes is enough: each candidate takes at least two (R194). -/
def receiveChunk (c : Bytes) (s : State) : State :=
  if fits s.params.accCap s.acc c then
    let r := rxDrain ((s.acc ++ c).length + 1) (s.acc ++ c)
    record (.snapshots r.1) (withAcc r.2 s)
  else enterFault .accOverflow s

/-- What the host presents next, taken from the queue (R60, R217); none when it has no further request. -/
def fetch (s : State) : Option (HostEvent × State) :=
  match s.pending with
  | [] => none
  | e :: rest => some (e, { s with pending := rest })

/-- What the decoder gives no instruction for: an unassigned code is the fault `IllegalOp` (R77); a frame of no known
format is received like any other chunk (R79, R203; log entry 12). -/
def undecoded (e : HostEvent) (s : State) : Host.Outcome State Fault Refusal :=
  match e with
  | .request _ => whenRunning s (enterFault .illegalOp s)
  | .frame f => whenRunning s (receiveChunk f s)

/-- Between requests the block holds its state and does nothing (R215; log entry 5), and a faulted block has no step
(R204). -/
def idle (s : State) : Host.Outcome State Fault Refusal := whenRunning s s

/-- What the host presents, put where the next step takes it from. -/
def present (e : HostEvent) (s : State) : State := { s with pending := e :: s.pending }

end Sys2Proof.Machine
end

