-- ==== Sys2Proof/Machine/CrcEngine.lean ====
section
/-! DEFINITION. The CRC engine's operation (40_crc.md). -/

namespace Sys2Proof.Machine

/-- `CRC16 s, n` (R101). -/
def execCrc16 (s : Bytes) (n : Nat) (σ : State) : Host.Outcome State Fault Refusal :=
  whenRunning σ (if n ≤ s.length then record (.crc (crc16 s n)) σ else enterFault .crcLengthRange σ)

end Sys2Proof.Machine
end

