-- ==== Sys2Proof/Machine/Encoder.lean ====
section
/-! DEFINITION. The frame encoder's operations (41_encode.md). Each returns one whole frame or nothing (R118), every
byte unescaped (R119). -/

namespace Sys2Proof.Machine

/-- `ENC.READALL` (R112). -/
def execEncReadall (σ : State) : Host.Outcome State Fault Refusal :=
  whenRunning σ (record (.frame (readallFrame σ.params)) σ)

/-- `ENC.SETV ch, v` (R113). -/
def execEncSetv (ch : Nat) (v : Decimal) (σ : State) : Host.Outcome State Fault Refusal :=
  whenRunning σ (valueCommand ch v scaleV σ.params.addrV1 σ.params.addrV2 σ)

/-- `ENC.SETI ch, v` (R114). -/
def execEncSeti (ch : Nat) (v : Decimal) (σ : State) : Host.Outcome State Fault Refusal :=
  whenRunning σ (valueCommand ch v scaleI σ.params.addrI1 σ.params.addrI2 σ)

/-- `ENC.SETOUT b` (R115). -/
def execEncSetout (b : Bool) (σ : State) : Host.Outcome State Fault Refusal :=
  whenRunning σ (flagCommand σ.params.addrOut (flagByte b) σ)

/-- `ENC.SETSER b` (R116). -/
def execEncSetser (b : Bool) (σ : State) : Host.Outcome State Fault Refusal :=
  whenRunning σ (flagCommand σ.params.addrSerPar (flagByte b) σ)

/-- `ENC.SETPAR b` (R117): `0x02`, never `0x01`, for true. -/
def execEncSetpar (b : Bool) (σ : State) : Host.Outcome State Fault Refusal :=
  whenRunning σ (flagCommand σ.params.addrSerPar (parallelByte b) σ)

end Sys2Proof.Machine
end

