-- ==== Sys2Proof/Machine/Extractor.lean ====
section
/-! DEFINITION. The frame extractor's operations (43_extract.md), the receive path (44_receive.md) and RESET
(70_reset_and_hazards.md): the operations that write `ACC`. -/

namespace Sys2Proof.Machine

/-- `X.PUSH c` (R170). -/
def execXPush (c : Bytes) (σ : State) : Host.Outcome State Fault Refusal :=
  whenRunning σ (pushChunk c σ)

/-- `X.POP` (R171). -/
def execXPop (σ : State) : Host.Outcome State Fault Refusal :=
  whenRunning σ (record (.candidate (popAcc σ.acc).1) (withAcc (popAcc σ.acc).2 σ))

/-- `RX.STEP c` (R190). -/
def execRxStep (c : Bytes) (σ : State) : Host.Outcome State Fault Refusal :=
  whenRunning σ (receiveChunk c σ)

/-- `RESET` (R231): the parameters, and what the host presents and has got back, stay. -/
def execReset (σ : State) : Host.Outcome State Fault Refusal :=
  whenRunning σ (record .done (withAcc [] σ))

end Sys2Proof.Machine
end

