-- ==== Sys2Proof/Machine/Parser.lean ====
section
/-! DEFINITION. The frame validator's and the response parser's operations (42_decode.md). Neither reads or writes
`ACC`. -/

namespace Sys2Proof.Machine

/-- `VALIDATE f` (R140). -/
def execValidate (f : Bytes) (σ : State) : Host.Outcome State Fault Refusal :=
  whenRunning σ (record (.verdict (validateFrame f)) σ)

/-- `PARSE f` (R143). -/
def execParse (f : Bytes) (σ : State) : Host.Outcome State Fault Refusal :=
  whenRunning σ
    (match parseFrame f with
    | .ok snap => record (.snapshot snap) σ
    | .error e => record (.parseError e) σ)

end Sys2Proof.Machine
end

