-- ==== Sys2Proof/Machine/Wire.lean ====
section
/-! DEFINITION. The wire formats (rules R66 to R70 of 30_encoding.md) as instructions: that frame arriving on the line
as one transport read, which the block takes as RX.STEP of its bytes (R79, R190). DESIGN CHOICE: log entry 10. -/

namespace Sys2Proof.Machine

/-- `WIRE.READALL` (R66): a read-all command echoed back. -/
def execWireReadall (p0 p1 b0 b1 crcLo crcHi : Byte) (σ : State) : Host.Outcome State Fault Refusal :=
  whenRunning σ (receiveChunk [startMarker, p0, p1, b0, b1, crcLo, crcHi, endMarker] σ)

/-- `WIRE.SETV1` (R67, R68): a set-voltage command for channel 1 echoed back. -/
def execWireSetv1 (p0 p1 fc addr valHi valLo crcLo crcHi : Byte) (σ : State) : Host.Outcome State Fault Refusal :=
  whenRunning σ (receiveChunk (setBytes p0 p1 fc addr valHi valLo crcLo crcHi) σ)

/-- `WIRE.SETV2` (R67, R68): a set-voltage command for channel 2 echoed back. -/
def execWireSetv2 (p0 p1 fc addr valHi valLo crcLo crcHi : Byte) (σ : State) : Host.Outcome State Fault Refusal :=
  whenRunning σ (receiveChunk (setBytes p0 p1 fc addr valHi valLo crcLo crcHi) σ)

/-- `WIRE.SETI1` (R67, R68): a set-current command for channel 1 echoed back. -/
def execWireSeti1 (p0 p1 fc addr valHi valLo crcLo crcHi : Byte) (σ : State) : Host.Outcome State Fault Refusal :=
  whenRunning σ (receiveChunk (setBytes p0 p1 fc addr valHi valLo crcLo crcHi) σ)

/-- `WIRE.SETI2` (R67, R68): a set-current command for channel 2 echoed back. -/
def execWireSeti2 (p0 p1 fc addr valHi valLo crcLo crcHi : Byte) (σ : State) : Host.Outcome State Fault Refusal :=
  whenRunning σ (receiveChunk (setBytes p0 p1 fc addr valHi valLo crcLo crcHi) σ)

/-- `WIRE.SETOUT` (R67, R68): a set-output command echoed back. -/
def execWireSetout (p0 p1 addr : Byte) (x : Bool) (crcLo crcHi : Byte) (σ : State) :
    Host.Outcome State Fault Refusal :=
  whenRunning σ (receiveChunk (setBytes p0 p1 fcFlag addr 0x00 (flagByte x) crcLo crcHi) σ)

/-- `WIRE.SETSER` (R67, R68): a set-serial-mode command echoed back. -/
def execWireSetser (p0 p1 addr : Byte) (x : Bool) (crcLo crcHi : Byte) (σ : State) :
    Host.Outcome State Fault Refusal :=
  whenRunning σ (receiveChunk (setBytes p0 p1 fcFlag addr 0x00 (flagByte x) crcLo crcHi) σ)

/-- `WIRE.SETPAR` (R67, R68): a set-parallel-mode command echoed back. -/
def execWireSetpar (p0 p1 addr : Byte) (x : Bool) (crcLo crcHi : Byte) (σ : State) :
    Host.Outcome State Fault Refusal :=
  whenRunning σ (receiveChunk (setBytes p0 p1 fcFlag addr 0x00 (parallelByte x) crcLo crcHi) σ)

/-- `WIRE.RSP` (R69): a read-all response. -/
def execWireRsp (r : RspFields) (σ : State) : Host.Outcome State Fault Refusal :=
  whenRunning σ (receiveChunk (rspBytes r) σ)

end Sys2Proof.Machine
end

