-- ==== Sys2Proof/Machine/Dispatch.lean ====
section
/-! DEFINITION. The dispatch: one arm per row of spec/opcode_table.json, each one call of its meaning. -/

namespace Sys2Proof.Machine

def exec (i : Instr) (s : State) : Host.Outcome State Fault Refusal :=
  match i with
  | .crc16 b n => Sys2Proof.Machine.execCrc16 b n s
  | .encReadall => Sys2Proof.Machine.execEncReadall s
  | .encSetv ch v => Sys2Proof.Machine.execEncSetv ch v s
  | .encSeti ch v => Sys2Proof.Machine.execEncSeti ch v s
  | .encSetout b => Sys2Proof.Machine.execEncSetout b s
  | .encSetser b => Sys2Proof.Machine.execEncSetser b s
  | .encSetpar b => Sys2Proof.Machine.execEncSetpar b s
  | .validate f => Sys2Proof.Machine.execValidate f s
  | .parse f => Sys2Proof.Machine.execParse f s
  | .xPush c => Sys2Proof.Machine.execXPush c s
  | .xPop => Sys2Proof.Machine.execXPop s
  | .rxStep c => Sys2Proof.Machine.execRxStep c s
  | .reset => Sys2Proof.Machine.execReset s
  | .wireReadall p0 p1 b0 b1 cl ch => Sys2Proof.Machine.execWireReadall p0 p1 b0 b1 cl ch s
  | .wireSetv1 p0 p1 fc a vh vl cl ch => Sys2Proof.Machine.execWireSetv1 p0 p1 fc a vh vl cl ch s
  | .wireSetv2 p0 p1 fc a vh vl cl ch => Sys2Proof.Machine.execWireSetv2 p0 p1 fc a vh vl cl ch s
  | .wireSeti1 p0 p1 fc a vh vl cl ch => Sys2Proof.Machine.execWireSeti1 p0 p1 fc a vh vl cl ch s
  | .wireSeti2 p0 p1 fc a vh vl cl ch => Sys2Proof.Machine.execWireSeti2 p0 p1 fc a vh vl cl ch s
  | .wireSetout p0 p1 a x cl ch => Sys2Proof.Machine.execWireSetout p0 p1 a x cl ch s
  | .wireSetser p0 p1 a x cl ch => Sys2Proof.Machine.execWireSetser p0 p1 a x cl ch s
  | .wireSetpar p0 p1 a x cl ch => Sys2Proof.Machine.execWireSetpar p0 p1 a x cl ch s
  | .wireRsp r => Sys2Proof.Machine.execWireRsp r s

end Sys2Proof.Machine
end

