-- ==== Sys2Proof/Machine/Step.lean ====
section
/-! DEFINITION. One step: what the host presents next is taken, decoded and performed, atomically (rules R60 of
30_encoding.md and R48 of 20_memory.md). It only calls `fetch`, `decode`, `exec`, `undecoded` and `idle`. -/

namespace Sys2Proof.Machine

/-- One step of the block. -/
def step (s : State) : Host.Outcome State Fault Refusal :=
  match fetch s with
  | none => idle s
  | some (e, s') =>
    match decode s.params e with
    | .ok i => exec i s'
    | .error _ => undecoded e s'

/-- `s` with the instruction of a word of spec/opcode_table.json presented to it, so that the next step performs it
(log entry 5: how a program comes to run). -/
def State.withFetchWord (s : State) (nbits w : Nat) : State := present (tableEvent nbits w) s

end Sys2Proof.Machine
end

