-- ==== Sys2Proof/Machine/Assembler.lean ====
section
/-! DEFINITION. The spec's written form of an operation (rule R81 of 30_encoding.md): its mnemonic, then its operands.
A wire format is no operation; it is written as its mnemonic and its bytes. -/

namespace Sys2Proof.Machine

/-- The mnemonic of spec/opcode_table.json (R61). -/
def mnemonicOf : Instr → String
  | .crc16 _ _ => "CRC16"
  | .encReadall => "ENC.READALL"
  | .encSetv _ _ => "ENC.SETV"
  | .encSeti _ _ => "ENC.SETI"
  | .encSetout _ => "ENC.SETOUT"
  | .encSetser _ => "ENC.SETSER"
  | .encSetpar _ => "ENC.SETPAR"
  | .validate _ => "VALIDATE"
  | .parse _ => "PARSE"
  | .xPush _ => "X.PUSH"
  | .xPop => "X.POP"
  | .rxStep _ => "RX.STEP"
  | .reset => "RESET"
  | .wireReadall _ _ _ _ _ _ => "WIRE.READALL"
  | .wireSetv1 _ _ _ _ _ _ _ _ => "WIRE.SETV1"
  | .wireSetv2 _ _ _ _ _ _ _ _ => "WIRE.SETV2"
  | .wireSeti1 _ _ _ _ _ _ _ _ => "WIRE.SETI1"
  | .wireSeti2 _ _ _ _ _ _ _ _ => "WIRE.SETI2"
  | .wireSetout _ _ _ _ _ _ => "WIRE.SETOUT"
  | .wireSetser _ _ _ _ _ _ => "WIRE.SETSER"
  | .wireSetpar _ _ _ _ _ _ => "WIRE.SETPAR"
  | .wireRsp _ => "WIRE.RSP"

/-- One hexadecimal digit. -/
def hexDigit (n : Nat) : Char := ['0', '1', '2', '3', '4', '5', '6', '7', '8', '9', 'A', 'B', 'C', 'D', 'E', 'F'].getD n '0'

/-- A byte as two hexadecimal digits. -/
def hexByte (b : Byte) : String := String.ofList [hexDigit (b.toNat / 16), hexDigit (b.toNat % 16)]

/-- A byte sequence as hexadecimal bytes in brackets (R81). -/
def bytesText (s : Bytes) : String := "[" ++ String.intercalate " " (s.map hexByte) ++ "]"

/-- A decimal literal with its `e` fractional digits (R81): `(1234, 2)` is written `12.34`. -/
def decimalText (v : Decimal) : String :=
  let digits := (toString v.m.natAbs).toList
  let padded := List.replicate (v.e + 1 - digits.length) '0' ++ digits
  let whole := padded.take (padded.length - v.e)
  let fraction := padded.drop (padded.length - v.e)
  let sign := if v.m < 0 then "-" else ""
  sign ++ String.ofList whole ++ (if v.e = 0 then "" else "." ++ String.ofList fraction)

/-- A Boolean operand (R81). -/
def boolText (b : Bool) : String := if b then "true" else "false"

/-- The bytes of a wire format. -/
def frameTexts (i : Instr) : List String := (i.frameBytes.map bytesText).toList

/-- The operands of an operation, in the order of R61; the bytes of a wire format. -/
def operandTexts : Instr → List String
  | .crc16 s n => [bytesText s, toString n]
  | .encReadall => []
  | .encSetv ch v => [toString ch, decimalText v]
  | .encSeti ch v => [toString ch, decimalText v]
  | .encSetout b => [boolText b]
  | .encSetser b => [boolText b]
  | .encSetpar b => [boolText b]
  | .validate f => [bytesText f]
  | .parse f => [bytesText f]
  | .xPush c => [bytesText c]
  | .xPop => []
  | .rxStep c => [bytesText c]
  | .reset => []
  | .wireReadall a b c d e f => frameTexts (.wireReadall a b c d e f)
  | .wireSetv1 a b c d e f g h => frameTexts (.wireSetv1 a b c d e f g h)
  | .wireSetv2 a b c d e f g h => frameTexts (.wireSetv2 a b c d e f g h)
  | .wireSeti1 a b c d e f g h => frameTexts (.wireSeti1 a b c d e f g h)
  | .wireSeti2 a b c d e f g h => frameTexts (.wireSeti2 a b c d e f g h)
  | .wireSetout a b c d e f => frameTexts (.wireSetout a b c d e f)
  | .wireSetser a b c d e f => frameTexts (.wireSetser a b c d e f)
  | .wireSetpar a b c d e f => frameTexts (.wireSetpar a b c d e f)
  | .wireRsp a => frameTexts (.wireRsp a)

/-- One line of a program (R81): the mnemonic, then the operands separated by commas. -/
def lineText (i : Instr) : String :=
  match operandTexts i with
  | [] => mnemonicOf i
  | ops => mnemonicOf i ++ " " ++ String.intercalate ", " ops

end Sys2Proof.Machine
end

