-- ==== Sys2Proof/Machine/Report.lean ====
section
/-! DEFINITION. What a host reads off a result: the numeric outcome codes (rule R200 of 60_exceptions.md) and the field
catalog of a snapshot (rule R141 of 42_decode.md). -/

namespace Sys2Proof.Machine

/-- The code of a model fault (R200). -/
def faultCode : ModelFault → Byte
  | .illegalOp => 0xF0
  | .illegalOperand => 0xF1
  | .crcLengthRange => 0xF2
  | .accOverflow => 0xF3

/-- The code of an outcome: `0x00` for every `ok`, a false verdict and `NONE` among them (R200). -/
def resultCode : Result → Byte
  | .crc _ => 0x00
  | .frame _ => 0x00
  | .verdict _ => 0x00
  | .snapshot _ => 0x00
  | .done => 0x00
  | .candidate _ => 0x00
  | .snapshots _ => 0x00
  | .encodingError .precision => 0x10
  | .encodingError .range => 0x11
  | .parseError .short => 0x20
  | .parseError .start => 0x21
  | .parseError .noEnd => 0x22
  | .fault f => faultCode f

/-- The field catalog: fifteen entries with the identifiers 0 to 14 (R141, D21). -/
def snapshotFields (s : Snapshot) : List FieldValue :=
  [.fixed s.ch1MV, .fixed s.ch1MI, .fixed s.ch1SV, .fixed s.ch1SI, .flag s.ch1CV, .flag s.ch1CC,
    .fixed s.ch2MV, .fixed s.ch2MI, .fixed s.ch2SV, .fixed s.ch2SI, .flag s.ch2CV, .flag s.ch2CC,
    .flag s.output, .flag s.serial, .flag s.parallel]

/-- The field with identifier `id` (R141). -/
def snapshotField (s : Snapshot) (id : Nat) : Option FieldValue := (snapshotFields s)[id]?

end Sys2Proof.Machine
end

