-- ==== Sys2Proof/WellFormed.lean ====
section
/-! DEFINITION. When an instruction is one the spec gives a meaning on a block with parameters `P`: the operand
domains of rule R62 of 30_encoding.md, and for a wire format the parameter bytes (R66, R68) and the CRC (R63). -/

namespace Sys2Proof

open Machine

/-- The CRC bytes are the little-endian CRC of every byte before them (R63). -/
def crcFits (f : Bytes) : Bool := embeddedCrc f == crc16 f (f.length - 3)

/-- A value command's frame: prefix, function code and address as configured, and the CRC (R67, R68). -/
def setWf (P : Params) (expected p0 p1 fc addr valHi valLo crcLo crcHi : Byte) : Bool :=
  p0 == P.prefix0 && p1 == P.prefix1 && fc == P.fcSet && addr == expected &&
    crcFits (setBytes p0 p1 fc addr valHi valLo crcLo crcHi)

/-- A flag command's frame: prefix and address as configured, and the CRC (R67, R68). -/
def flagWf (P : Params) (expected p0 p1 addr valLo crcLo crcHi : Byte) : Bool :=
  p0 == P.prefix0 && p1 == P.prefix1 && addr == expected &&
    crcFits (setBytes p0 p1 fcFlag addr 0x00 valLo crcLo crcHi)

/-- The domains of R62 and R101 for the operations; the bytes the configuration fixes and the CRC for the formats. -/
def Instr.wf (P : Params) : Instr → Bool
  | .crc16 s n => decide (n ≤ s.length)
  | .encReadall => true
  | .encSetv ch _ => decide (ch = 1 ∨ ch = 2)
  | .encSeti ch _ => decide (ch = 1 ∨ ch = 2)
  | .encSetout _ => true
  | .encSetser _ => true
  | .encSetpar _ => true
  | .validate _ => true
  | .parse _ => true
  | .xPush _ => true
  | .xPop => true
  | .rxStep _ => true
  | .reset => true
  | .wireReadall p0 p1 b0 b1 cl ch =>
    p0 == P.prefix0 && p1 == P.prefix1 && b0 == P.raBody0 && b1 == P.raBody1 &&
      crcFits [startMarker, p0, p1, b0, b1, cl, ch, endMarker]
  | .wireSetv1 p0 p1 fc a vh vl cl ch => setWf P P.addrV1 p0 p1 fc a vh vl cl ch
  | .wireSetv2 p0 p1 fc a vh vl cl ch => setWf P P.addrV2 p0 p1 fc a vh vl cl ch
  | .wireSeti1 p0 p1 fc a vh vl cl ch => setWf P P.addrI1 p0 p1 fc a vh vl cl ch
  | .wireSeti2 p0 p1 fc a vh vl cl ch => setWf P P.addrI2 p0 p1 fc a vh vl cl ch
  | .wireSetout p0 p1 a x cl ch => flagWf P P.addrOut p0 p1 a (flagByte x) cl ch
  | .wireSetser p0 p1 a x cl ch => flagWf P P.addrSerPar p0 p1 a (flagByte x) cl ch
  | .wireSetpar p0 p1 a x cl ch => flagWf P P.addrSerPar p0 p1 a (parallelByte x) cl ch
  | .wireRsp r => crcFits (rspBytes r)

end Sys2Proof
end

