-- ==== Sys2Proof/Safety.lean ====
section
/-! DEFINITION. The terms claims are stated in: the greedy delimiting of a byte stream (rule R174 of 43_extract.md), what
is delivered of it (R195 of 44_receive.md), resting accumulators and candidate shapes (R172, R173), the outputs of a
run (R217 of 60_exceptions.md), and the invariant of the machine. None of them is used by the step. -/

namespace Sys2Proof.Machine

/-- The sides of the command interface (R213, R216). -/
inductive Side where
  /-- ENC.*: the Poller and the setters issue them. -/
  | transmit
  /-- X.PUSH, X.POP, RX.STEP, and a frame on the line: the Reader alone. -/
  | receive
  /-- CRC16, VALIDATE, PARSE: any requester. -/
  | pure
  /-- RESET: the host, at any time. -/
  | control
  deriving DecidableEq, Repr

/-- Which side an instruction belongs to (R213, R216). -/
def sideOf : Instr → Side
  | .crc16 _ _ => .pure
  | .encReadall => .transmit
  | .encSetv _ _ => .transmit
  | .encSeti _ _ => .transmit
  | .encSetout _ => .transmit
  | .encSetser _ => .transmit
  | .encSetpar _ => .transmit
  | .validate _ => .pure
  | .parse _ => .pure
  | .xPush _ => .receive
  | .xPop => .receive
  | .rxStep _ => .receive
  | .reset => .control
  | .wireReadall _ _ _ _ _ _ => .receive
  | .wireSetv1 _ _ _ _ _ _ _ _ => .receive
  | .wireSetv2 _ _ _ _ _ _ _ _ => .receive
  | .wireSeti1 _ _ _ _ _ _ _ _ => .receive
  | .wireSeti2 _ _ _ _ _ _ _ _ => .receive
  | .wireSetout _ _ _ _ _ _ => .receive
  | .wireSetser _ _ _ _ _ _ => .receive
  | .wireSetpar _ _ _ _ _ _ => .receive
  | .wireRsp _ => .receive

/-- The wire format an ENC.* operation emits (R66 to R68). -/
def formatOf : Instr → Option String
  | .encReadall => some "WIRE.READALL"
  | .encSetv ch _ => if ch = 1 then some "WIRE.SETV1" else if ch = 2 then some "WIRE.SETV2" else none
  | .encSeti ch _ => if ch = 1 then some "WIRE.SETI1" else if ch = 2 then some "WIRE.SETI2" else none
  | .encSetout _ => some "WIRE.SETOUT"
  | .encSetser _ => some "WIRE.SETSER"
  | .encSetpar _ => some "WIRE.SETPAR"
  | .crc16 _ _ => none
  | .validate _ => none
  | .parse _ => none
  | .xPush _ => none
  | .xPop => none
  | .rxStep _ => none
  | .reset => none
  | .wireReadall _ _ _ _ _ _ => none
  | .wireSetv1 _ _ _ _ _ _ _ _ => none
  | .wireSetv2 _ _ _ _ _ _ _ _ => none
  | .wireSeti1 _ _ _ _ _ _ _ _ => none
  | .wireSeti2 _ _ _ _ _ _ _ _ => none
  | .wireSetout _ _ _ _ _ _ => none
  | .wireSetser _ _ _ _ _ _ => none
  | .wireSetpar _ _ _ _ _ _ => none
  | .wireRsp _ => none

/-- The least offset `k >= p` with `s[k] = b` (R174). -/
def findFrom (s : Bytes) (p : Nat) (b : Byte) : Option Nat := (find (s.drop p) b).map (· + p)

/-- The loop of `G` from offset `p`, at most `k` rounds (R174): the sub-sequences found, and what is left of the
stream when it stops: from the start marker that no end marker follows, or nothing. -/
def delimitFrom (s : Bytes) : Nat → Nat → List Bytes × Bytes
  | 0, _ => ([], [])
  | k + 1, p =>
    match findFrom s p startMarker with
    | none => ([], [])
    | some a =>
      match findFrom s (a + 1) endMarker with
      | none => ([], s.drop a)
      | some b => (slice s a (b + 1) :: (delimitFrom s k (b + 1)).1, (delimitFrom s k (b + 1)).2)

/-- `G(s)`, the greedy delimiting of a byte stream (R174). -/
def delimit (s : Bytes) : List Bytes := (delimitFrom s (s.length + 1) 0).1

/-- What the greedy delimiting leaves of the stream: a frame begun and not ended (R30), or nothing. -/
def undelimited (s : Bytes) : Bytes := (delimitFrom s (s.length + 1) 0).2

/-- `[PARSE(g) | g in l, VALIDATE g, len(g) = 26]` (R195). -/
def deliver (l : List Bytes) : List Snapshot :=
  (l.filter (fun g => validateFrame g && decide (g.length = 26))).map snapshotOf

/-- The resting state of the accumulator (R172). -/
def Resting (acc : Bytes) : Prop := acc = [] ∨ (acc.head? = some startMarker ∧ endMarker ∉ acc)

/-- The shape of a candidate (R173). -/
def CandidateShape (c : Bytes) : Prop :=
  2 ≤ c.length ∧ c.head? = some startMarker ∧ c.getLast? = some endMarker ∧ endMarker ∉ c.dropLast

/-- A complete response without an early end marker (R196): 26 bytes, valid, no end marker at offsets 1 to 24. -/
def Deliverable (f : Bytes) : Prop :=
  validateFrame f = true ∧ f.length = 26 ∧ endMarker ∉ f.dropLast

/-- The frames among results, in order: the block's transmit output (R60). -/
def framesOf (rs : List Result) : List Bytes :=
  rs.filterMap (fun r => match r with | .frame f => some f | _ => none)

/-- The candidates among results, in order (R174). -/
def candidatesOf (rs : List Result) : List Bytes :=
  rs.filterMap (fun r => match r with | .candidate c => c | _ => none)

/-- The snapshots RX.STEP returned, concatenated: the block's receive output (R60, R195). -/
def deliveredOf (rs : List Result) : List Snapshot :=
  rs.flatMap (fun r => match r with | .snapshots l => l | _ => [])

/-- `r` is `fault(F)`. -/
def isFault (r : Result) : Bool :=
  match r with
  | .fault _ => true
  | _ => false

/-- A run ends well when `RUN = Running` at its end (R217). -/
def EndsWell (s : State) : Prop := s.pending = [] ∧ s.run = .running

/-- The scales of a snapshot's fields: two digits for voltages, three for currents (R141). -/
def ScalesFit (x : Snapshot) : Prop :=
  x.ch1MV.digits = 2 ∧ x.ch1SV.digits = 2 ∧ x.ch2MV.digits = 2 ∧ x.ch2SV.digits = 2 ∧
  x.ch1MI.digits = 3 ∧ x.ch1SI.digits = 3 ∧ x.ch2MI.digits = 3 ∧ x.ch2SI.digits = 3

/-- What every result of the block is: a frame emitted is whole, valid and of length 8 or 11 (R79, R118, R121), a
candidate has its shape (R173), a snapshot its scales (R141). -/
def ResultFits : Result → Prop
  | .frame f => validateFrame f = true ∧ (f.length = 8 ∨ f.length = 11)
  | .candidate (some c) => CandidateShape c
  | .snapshot x => ScalesFit x
  | .snapshots l => ∀ x ∈ l, ScalesFit x
  | _ => True

/-- `RUN` and the results agree: a running block has returned no fault, a faulted one returned its fault last and no
other (R204, R217). -/
def RunAgrees (s : State) : Prop :=
  match s.run with
  | .running => ∀ r ∈ s.results, isFault r = false
  | .faulted f => ∃ rs, s.results = rs ++ [.fault f] ∧ ∀ r ∈ rs, isFault r = false

/-- The accumulator is within a finite capacity (R55). -/
def WithinCap (s : State) : Prop := ∀ n, s.params.accCap = some n → s.acc.length ≤ n

/-- The invariant of the machine: capacity (R55), distinct value addresses (R8), every result as the spec says (R118,
R121, R141, R173), and `RUN` in agreement with the results (R204). -/
def Inv (s : State) : Prop :=
  WithinCap s ∧ s.params.distinct = true ∧ (∀ r ∈ s.results, ResultFits r) ∧ RunAgrees s

/-- No two rows of R68's table share both function code and address, but for the two flags of the shared address:
the parameters under which a receiver can tell a set command by its bytes (log entry 11). -/
def CommandsApart (P : Params) : Prop :=
  P.distinct = true ∧ P.addrOut ≠ P.addrSerPar ∧
  (P.fcSet = fcFlag →
    P.addrOut ∉ [P.addrV1, P.addrV2, P.addrI1, P.addrI2] ∧ P.addrSerPar ∉ [P.addrV1, P.addrV2, P.addrI1, P.addrI2])

/-- `k` steps of the machine, stopping at the first stop. -/
def runFor (k : Nat) (s : State) : Host.Outcome State Fault Refusal := Host.Core.run Sys2Proof.core k s

end Sys2Proof.Machine
end

