-- ==== Sys2Proof/Certificates/Slice0/Obligations.lean ====
section
/-! DEFINITION. The statements for the provers, each citing the rule or section of the spec it formalises. -/

open Sys2Proof Sys2Proof.Machine

/-- The reset values of 10_state.md section 7: `ACC = []` and `RUN = Running` are the spec's decisions D14 and D15, the unbounded
capacity its default D13, the empty queue and result list the model's (log entries 5 and 6). -/
def Obligations.ResetStateIsEmptyAndRunning : Prop :=
  (∀ P : Params, State.instantiate P =
    { params := P, acc := [], run := .running, pending := [], results := [] }) ∧
  State.reset.acc = [] ∧ State.reset.run = .running ∧ State.reset.pending = [] ∧ State.reset.results = [] ∧
  State.reset.params.accCap = none

/-- RESET (70_reset_and_hazards.md section 1; the spec's decision D14). -/
def Obligations.ResetEmptiesTheAccumulator : Prop :=
  (∀ P : Params, decode P (.request { op := 0x3F }) = .ok .reset) ∧
  ∀ s : State, s.run = .running →
    exec .reset s = .next { s with acc := [], results := s.results ++ [.done] }

/-- The terminal fault of 60_exceptions.md section 1, the spec's decision D15; that the machine says it by a stop is log entry 7. -/
def Obligations.FaultedBlockHasNoStep : Prop :=
  ∀ (s : State) (f : ModelFault), s.run = .faulted f →
    (∀ i : Instr, exec i s = .fault (.noStep f)) ∧ step s = .fault (.noStep f)

/-- One request at a time, performed atomically (30_encoding.md section 1). That the host's requests stand in a queue is the
model's choice (log entry 5). -/
def Obligations.StepRunsTheDecodedInstruction : Prop :=
  ∀ (s : State) (e : HostEvent) (rest : List HostEvent) (i : Instr),
    s.pending = e :: rest → decode s.params e = .ok i → step s = exec i { s with pending := rest }

/-- Between requests the block holds `ACC` and does nothing (60_exceptions.md section 4); that this is a step is log entry 5. -/
def Obligations.IdleBlockHoldsItsState : Prop :=
  ∀ s : State, s.run = .running → s.pending = [] → step s = .next s

/-- Unassigned codes (30_encoding.md section 5; the spec's decision D16). -/
def Obligations.UnassignedCodeFaults : Prop :=
  ∀ (s : State) (r : Request) (rest : List HostEvent), s.run = .running → s.pending = .request r :: rest →
    r.op ∉ [0x01, 0x10, 0x11, 0x12, 0x13, 0x14, 0x15, 0x20, 0x21, 0x30, 0x31, 0x32, 0x3F] →
    step s = .next { s with
      pending := rest, run := .faulted .illegalOp, results := s.results ++ [.fault .illegalOp] }

/-- Framing noise is dropped by the receive path, never an error (60_exceptions.md section 1); that an arriving frame is RX.STEP of
its bytes is the model's choice (log entries 10 and 12). -/
def Obligations.UnknownFrameIsReceivedAsAChunk : Prop :=
  ∀ (s : State) (f : Bytes) (rest : List HostEvent) (e : DecodeError), s.pending = .frame f :: rest →
    decode s.params (.frame f) = .error e → step s = exec (.rxStep f) { s with pending := rest }

/-- How a program comes to run: the host presents it (log entry 5); the operands beside a bare code word are log entry 8. -/
def Obligations.FetchWordRunsTheTableWord : Prop :=
  ∀ (s : State) (nbits w : Nat) (i : Instr), s.params = Config.params → decodeTableWord nbits w = some i →
    step (s.withFetchWord nbits w) = exec i s

/-- The per-byte step of the CRC (R100), with its example. -/
def Obligations.CrcUpdateIsEightRounds : Prop :=
  (∀ (acc : U16) (b : Byte), crcUpdate acc b =
    (fun a : U16 => if a[0] = true then (a >>> 1) ^^^ 0xA001#16 else a >>> 1)^[8] (acc ^^^ BitVec.setWidth 16 b)) ∧
  crcUpdate 0xFFFF 0x00 = 0x40BF

/-- CRC16 (40_crc.md section 2) where the bytes exist; the other case is `Crc16BeyondTheBytesFaults`. -/
def Obligations.Crc16FoldsTheFirstBytes : Prop :=
  (∀ (P : Params) (b : Bytes) (n : Nat), decode P (.request { op := 0x01, bytes := b, n := n }) = .ok (.crc16 b n)) ∧
  (∀ (s : State) (b : Bytes) (n : Nat), s.run = .running → n ≤ b.length →
    exec (.crc16 b n) s =
      .next { s with results := s.results ++ [.crc (List.foldl crcUpdate 0xFFFF (b.take n))] }) ∧
  (∀ b : Bytes, crc16 b 0 = 0xFFFF) ∧
  (∀ b u : Bytes, crc16 (b ++ u) b.length = crc16 b b.length)

/-- The fault of CRC16 (the spec's decision D17). -/
def Obligations.Crc16BeyondTheBytesFaults : Prop :=
  ∀ (s : State) (b : Bytes) (n : Nat), s.run = .running → b.length < n →
    exec (.crc16 b n) s = .next { s with
      run := .faulted .crcLengthRange, results := s.results ++ [.fault .crcLengthRange] }

/-- The incremental form and the residue (40_crc.md section 3), which the spec derives. -/
def Obligations.CrcIsIncrementalWithResidueZero : Prop :=
  (∀ s t : Bytes, crc16 (s ++ t) (s ++ t).length = List.foldl crcUpdate (crc16 s s.length) t) ∧
  ∀ (s : Bytes) (c : U16), c = crc16 s s.length →
    crc16 (s ++ [lo8 c]) (s.length + 1) = BitVec.setWidth 16 (hi8 c) ∧
    crc16 (s ++ [lo8 c, hi8 c]) (s.length + 2) = 0

/-- Single-byte error detection for every valid frame, the encoder's among them (40_crc.md section 3; that there is no collision is
the spec's derivation). -/
def Obligations.SingleByteChangeIsDetected : Prop :=
  ∀ (s : State) (f : Bytes) (i : Nat) (b : Byte), s.run = .running → validateFrame f = true → i < f.length →
    b ≠ byteAt f i →
    exec (.validate (f.set i b)) s = .next { s with results := s.results ++ [.verdict false] }

/-- The frame builder (R110). -/
def Obligations.MkframeAppendsCrcAndEndMarker : Prop :=
  (∀ body : Bytes, mkframe body =
    body ++ [lo8 (crc16 body body.length), hi8 (crc16 body body.length), 0xFD]) ∧
  (∀ P : Params, ∃ body : Bytes, readallFrame P = mkframe body ∧ body.head? = some 0xF7 ∧ body.length = 5) ∧
  (∀ (P : Params) (fc addr valHi valLo : Byte), ∃ body : Bytes,
    setFrame P fc addr valHi valLo = mkframe body ∧ body.head? = some 0xF7 ∧ body.length = 8)

/-- No escaping (41_encode.md section 3); the 8-byte layout of the read-all frame in the second clause is the spec's resolution C1
and decision D5 (log entry 16). -/
def Obligations.EncoderCopiesEveryByteUnescaped : Prop :=
  (∀ (P : Params) (fc addr valHi valLo : Byte),
    setFrame P fc addr valHi valLo =
      [0xF7, P.prefix0, P.prefix1, fc, addr, 0x01, valHi, valLo,
        lo8 (crc16 [0xF7, P.prefix0, P.prefix1, fc, addr, 0x01, valHi, valLo] 8),
        hi8 (crc16 [0xF7, P.prefix0, P.prefix1, fc, addr, 0x01, valHi, valLo] 8), 0xFD]) ∧
  (∀ P : Params, readallFrame P =
    [0xF7, P.prefix0, P.prefix1, P.raBody0, P.raBody1,
      lo8 (crc16 [0xF7, P.prefix0, P.prefix1, P.raBody0, P.raBody1] 5),
      hi8 (crc16 [0xF7, P.prefix0, P.prefix1, P.raBody0, P.raBody1] 5), 0xFD]) ∧
  ∀ s : State, s.run = .running → ∃ f : Bytes,
    exec (.encSetv 1 ⟨253, 2⟩) s = .next { s with results := s.results ++ [.frame f] } ∧ f[7]? = some 0xFD

/-- ENC.READALL (41_encode.md section 2); the length 8 is the spec's resolution C1 and decision D5. -/
def Obligations.ReadallEmitsItsEightBytes : Prop :=
  (∀ P : Params, decode P (.request { op := 0x10 }) = .ok .encReadall) ∧
  ∀ s : State, s.run = .running →
    exec .encReadall s = .next { s with results := s.results ++
      [.frame [0xF7, s.params.prefix0, s.params.prefix1, s.params.raBody0, s.params.raBody1,
        lo8 (crc16 [0xF7, s.params.prefix0, s.params.prefix1, s.params.raBody0, s.params.raBody1] 5),
        hi8 (crc16 [0xF7, s.params.prefix0, s.params.prefix1, s.params.raBody0, s.params.raBody1] 5), 0xFD]] }

/-- ENC.SETV (41_encode.md sections 1 and 2); the test on the value, the unsigned range and the reasons' order are the
spec's decisions D8, D9 and D10, the one function code D6. -/
def Obligations.SetVoltageScalesExactly : Prop :=
  (∀ (P : Params) (ch : Nat) (v : Decimal),
    decode P (.request { op := 0x11, ch := ch, v := v }) = .ok (.encSetv ch v)) ∧
  ∀ (s : State) (ch : Nat) (v : Decimal), s.run = .running → ch = 1 ∨ ch = 2 →
    (∀ raw : U16, v.m * 100 = (raw.toNat : Int) * 10 ^ v.e →
      exec (.encSetv ch v) s = .next { s with results := s.results ++ [.frame (mkframe
        [0xF7, s.params.prefix0, s.params.prefix1, s.params.fcSet,
          if ch = 1 then s.params.addrV1 else s.params.addrV2, 0x01, hi8 raw, lo8 raw])] }) ∧
    (¬((10 : Int) ^ v.e ∣ v.m * 100) →
      exec (.encSetv ch v) s = .next { s with results := s.results ++ [.encodingError .precision] }) ∧
    ((10 : Int) ^ v.e ∣ v.m * 100 → v.m * 100 < 0 ∨ 65535 * (10 : Int) ^ v.e < v.m * 100 →
      exec (.encSetv ch v) s = .next { s with results := s.results ++ [.encodingError .range] })

/-- ENC.SETI (41_encode.md sections 1 and 2); the test on the value, the unsigned range and the reasons' order are the
spec's decisions D8, D9 and D10, the one function code D6. -/
def Obligations.SetCurrentScalesExactly : Prop :=
  (∀ (P : Params) (ch : Nat) (v : Decimal),
    decode P (.request { op := 0x12, ch := ch, v := v }) = .ok (.encSeti ch v)) ∧
  ∀ (s : State) (ch : Nat) (v : Decimal), s.run = .running → ch = 1 ∨ ch = 2 →
    (∀ raw : U16, v.m * 1000 = (raw.toNat : Int) * 10 ^ v.e →
      exec (.encSeti ch v) s = .next { s with results := s.results ++ [.frame (mkframe
        [0xF7, s.params.prefix0, s.params.prefix1, s.params.fcSet,
          if ch = 1 then s.params.addrI1 else s.params.addrI2, 0x01, hi8 raw, lo8 raw])] }) ∧
    (¬((10 : Int) ^ v.e ∣ v.m * 1000) →
      exec (.encSeti ch v) s = .next { s with results := s.results ++ [.encodingError .precision] }) ∧
    ((10 : Int) ^ v.e ∣ v.m * 1000 → v.m * 1000 < 0 ∨ 65535 * (10 : Int) ^ v.e < v.m * 1000 →
      exec (.encSeti ch v) s = .next { s with results := s.results ++ [.encodingError .range] })

/-- The operand fault (30_encoding.md section 5; the spec's decision D16). -/
def Obligations.BadChannelFaults : Prop :=
  ∀ (s : State) (ch : Nat) (v : Decimal), s.run = .running → ch ≠ 1 → ch ≠ 2 →
    exec (.encSetv ch v) s = .next { s with
      run := .faulted .illegalOperand, results := s.results ++ [.fault .illegalOperand] } ∧
    exec (.encSeti ch v) s = .next { s with
      run := .faulted .illegalOperand, results := s.results ++ [.fault .illegalOperand] }

/-- Exact decimal scaling (41_encode.md section 1); the test on the value and the unsigned range are the spec's decisions D8, D9. -/
def Obligations.ToRawIsExactScaling : Prop :=
  (∀ (v : Decimal) (k : Nat) (raw : U16),
    toRaw v k = .ok raw ↔ decimalValue v * (10 : ℚ) ^ k = (raw.toNat : ℚ)) ∧
  ∀ (v w : Decimal) (k : Nat), decimalValue v = decimalValue w → toRaw v k = toRaw w k

/-- ENC.SETOUT (R115). -/
def Obligations.SetOutputEmitsItsFrame : Prop :=
  (∀ (P : Params) (b : Bool), decode P (.request { op := 0x13, b := b }) = .ok (.encSetout b)) ∧
  ∀ (s : State) (b : Bool), s.run = .running →
    exec (.encSetout b) s = .next { s with results := s.results ++ [.frame (mkframe
      [0xF7, s.params.prefix0, s.params.prefix1, 0x0A, s.params.addrOut, 0x01, 0x00, if b then 0x01 else 0x00])] }

/-- ENC.SETSER (R116). -/
def Obligations.SetSerialEmitsItsFrame : Prop :=
  (∀ (P : Params) (b : Bool), decode P (.request { op := 0x14, b := b }) = .ok (.encSetser b)) ∧
  (∀ (s : State) (b : Bool), s.run = .running →
    exec (.encSetser b) s = .next { s with results := s.results ++ [.frame (mkframe
      [0xF7, s.params.prefix0, s.params.prefix1, 0x0A, s.params.addrSerPar, 0x01, 0x00,
        if b then 0x01 else 0x00])] }) ∧
  ∀ s : State, exec (.encSetser false) s = exec (.encSetpar false) s

/-- ENC.SETPAR (R117). -/
def Obligations.SetParallelEmitsItsFrame : Prop :=
  (∀ (P : Params) (b : Bool), decode P (.request { op := 0x15, b := b }) = .ok (.encSetpar b)) ∧
  ∀ (s : State) (b : Bool), s.run = .running →
    exec (.encSetpar b) s = .next { s with results := s.results ++ [.frame (mkframe
      [0xF7, s.params.prefix0, s.params.prefix1, 0x0A, s.params.addrSerPar, 0x01, 0x00,
        if b then 0x02 else 0x00])] }

/-- The shared address (41_encode.md section 3, which the spec derives; 70_reset_and_hazards.md section 3). -/
def Obligations.SerialAndParallelCommandsCompared : Prop :=
  ∀ s : State, s.run = .running → ∃ f g h : Bytes,
    exec (.encSetser false) s = .next { s with results := s.results ++ [.frame f] } ∧
    exec (.encSetpar false) s = .next { s with results := s.results ++ [.frame f] } ∧
    exec (.encSetser true) s = .next { s with results := s.results ++ [.frame g] } ∧
    exec (.encSetpar true) s = .next { s with results := s.results ++ [.frame h] } ∧
    g ≠ h ∧ g[7]? = some 0x01 ∧ h[7]? = some 0x02 ∧ ∀ k < 7, g[k]? = h[k]?

/-- The addresses select channel and quantity (00_scope.md section 3, which the spec derives). -/
def Obligations.AddressTellsTheValueCommands : Prop :=
  ∀ (s : State) (ch ch' : Nat) (v v' : Decimal) (f g : Bytes), s.params.distinct = true →
    (exec (.encSetv ch v) s = .next { s with results := s.results ++ [.frame f] } →
      exec (.encSeti ch' v') s = .next { s with results := s.results ++ [.frame g] } → f[4]? ≠ g[4]?) ∧
    (exec (.encSetv ch v) s = .next { s with results := s.results ++ [.frame f] } →
      exec (.encSetv ch' v') s = .next { s with results := s.results ++ [.frame g] } → ch ≠ ch' → f[4]? ≠ g[4]?) ∧
    (exec (.encSeti ch v) s = .next { s with results := s.results ++ [.frame f] } →
      exec (.encSeti ch' v') s = .next { s with results := s.results ++ [.frame g] } → ch ≠ ch' → f[4]? ≠ g[4]?)

/-- The encoder's round trip (41_encode.md section 3). -/
def Obligations.EmittedFramesValidate : Prop :=
  ∀ (i : Instr) (s t : State) (f : Bytes), exec i s = .next t → t.results = s.results ++ [.frame f] →
    sideOf i = .transmit ∧ (f.length = 8 ∨ f.length = 11) ∧
    exec (.validate f) t = .next { t with results := t.results ++ [.verdict true] }

/-- The wire formats (30_encoding.md section 2) are what the encoder emits. -/
def Obligations.EmittedFramesHaveTheirWireFormat : Prop :=
  ∀ (i : Instr) (s t : State) (f : Bytes), exec i s = .next t → t.results = s.results ++ [.frame f] →
    ∃ (w : Instr) (m : String), formatOf i = some m ∧ mnemonicOf w = m ∧ w.wf s.params = true ∧
      w.frameBytes = some f

/-- EncodingError (R201). -/
def Obligations.EncodingErrorChangesNothing : Prop :=
  ∀ (i : Instr) (s t : State) (e : EncodingReason), exec i s = .next t →
    t.results = s.results ++ [.encodingError e] →
    t = { s with results := s.results ++ [.encodingError e] } ∧ t.run = .running ∧
    framesOf t.results = framesOf s.results ∧
    ∀ (j : Instr) (u : State), exec j s = .next u →
      ∃ r : Result, u.results = s.results ++ [r] ∧ exec j t = .next { u with results := t.results ++ [r] }

/-- VALIDATE (R140). -/
def Obligations.ValidateReportsTheFourTests : Prop :=
  (∀ (P : Params) (f : Bytes), decode P (.request { op := 0x20, bytes := f }) = .ok (.validate f)) ∧
  (∀ (s : State) (f : Bytes), s.run = .running → ∃ v : Bool,
    exec (.validate f) s = .next { s with results := s.results ++ [.verdict v] } ∧
    (v = true ↔ 6 ≤ f.length ∧ f.head? = some 0xF7 ∧ f.getLast? = some 0xFD ∧
      be16 (byteAt f (f.length - 2)) (byteAt f (f.length - 3)) =
        List.foldl crcUpdate 0xFFFF (f.take (f.length - 3)))) ∧
  (∀ s : State, s.run = .running →
    exec (.validate [0xF7, 0x01, 0x02, 0x40, 0x63, 0xFD]) s =
      .next { s with results := s.results ++ [.verdict true] } ∧
    exec (.validate [0xF7, 0x01, 0x86, 0x40, 0xFD]) s =
      .next { s with results := s.results ++ [.verdict false] })

/-- PARSE (42_decode.md section 3); the reasons and their order are the spec's decision D11, the fields' order D21. -/
def Obligations.ParseDecodesOrReportsInOrder : Prop :=
  (∀ (P : Params) (f : Bytes), decode P (.request { op := 0x21, bytes := f }) = .ok (.parse f)) ∧
  ∀ (s : State) (f : Bytes), s.run = .running →
    (f.length < 26 → exec (.parse f) s = .next { s with results := s.results ++ [.parseError .short] }) ∧
    (26 ≤ f.length → f.head? ≠ some 0xF7 →
      exec (.parse f) s = .next { s with results := s.results ++ [.parseError .start] }) ∧
    (26 ≤ f.length → f.head? = some 0xF7 → f.getLast? ≠ some 0xFD →
      exec (.parse f) s = .next { s with results := s.results ++ [.parseError .noEnd] }) ∧
    (26 ≤ f.length → f.head? = some 0xF7 → f.getLast? = some 0xFD →
      exec (.parse f) s = .next { s with results := s.results ++ [.snapshot
        { ch1MV := ⟨be16 (byteAt f 11) (byteAt f 12), 2⟩, ch1MI := ⟨be16 (byteAt f 13) (byteAt f 14), 3⟩
          ch1SV := ⟨be16 (byteAt f 19) (byteAt f 20), 2⟩, ch1SI := ⟨be16 (byteAt f 21) (byteAt f 22), 3⟩
          ch1CV := (byteAt f 6).getLsbD 0, ch1CC := (byteAt f 6).getLsbD 1
          ch2MV := ⟨be16 (byteAt f 7) (byteAt f 8), 2⟩, ch2MI := ⟨be16 (byteAt f 9) (byteAt f 10), 3⟩
          ch2SV := ⟨be16 (byteAt f 15) (byteAt f 16), 2⟩, ch2SI := ⟨be16 (byteAt f 17) (byteAt f 18), 3⟩
          ch2CV := (byteAt f 5).getLsbD 0, ch2CC := (byteAt f 5).getLsbD 1
          output := (byteAt f 5).getLsbD 5, serial := (byteAt f 5).getLsbD 2
          parallel := (byteAt f 5).getLsbD 3 }] })

/-- What PARSE does not check (42_decode.md section 3); that unused bits are ignored is the spec's decision D20. -/
def Obligations.ParseIgnoresWhatItDoesNotRead : Prop :=
  ∀ (s : State) (f g : Bytes), f.length = g.length → f[0]? = g[0]? → f.getLast? = g.getLast? →
    (∀ b ∈ [0, 1, 2, 3, 5], (byteAt f 5).getLsbD b = (byteAt g 5).getLsbD b) →
    (∀ b ∈ [0, 1], (byteAt f 6).getLsbD b = (byteAt g 6).getLsbD b) →
    (∀ k, 7 ≤ k → k ≤ 22 → f[k]? = g[k]?) →
    exec (.parse f) s = exec (.parse g) s

/-- Totality of PARSE (42_decode.md section 3), which the spec derives. -/
def Obligations.ParseIsTotalOnValidFrames : Prop :=
  ∀ (s : State) (f : Bytes), s.run = .running → validateFrame f = true → 26 ≤ f.length →
    ∃ x : Snapshot, exec (.parse f) s = .next { s with results := s.results ++ [.snapshot x] } ∧ ScalesFit x

/-- The status bytes (R70, R74). -/
def Obligations.FlagsComeFromTheStatusBytes : Prop :=
  ∀ (s : State) (f : Bytes) (x : Snapshot),
    exec (.parse f) s = .next { s with results := s.results ++ [.snapshot x] } →
    x.ch2CV = (byteAt f 5).getLsbD 0 ∧ x.ch2CC = (byteAt f 5).getLsbD 1 ∧
    x.serial = (byteAt f 5).getLsbD 2 ∧ x.parallel = (byteAt f 5).getLsbD 3 ∧ x.output = (byteAt f 5).getLsbD 5 ∧
    x.ch1CV = (byteAt f 6).getLsbD 0 ∧ x.ch1CC = (byteAt f 6).getLsbD 1

/-- The value fields of a response (R73), at the offsets of the layout table (30_encoding.md section 2). -/
def Obligations.ResponseValuesDecodeExactly : Prop :=
  (∀ (s : State) (r : RspFields), s.run = .running → ∃ x : Snapshot,
    exec (.parse (rspBytes r)) s = .next { s with results := s.results ++ [.snapshot x] } ∧
    x.ch1MV = ⟨r.ch1MV, 2⟩ ∧ x.ch1MI = ⟨r.ch1MI, 3⟩ ∧ x.ch1SV = ⟨r.ch1SV, 2⟩ ∧ x.ch1SI = ⟨r.ch1SI, 3⟩ ∧
    x.ch2MV = ⟨r.ch2MV, 2⟩ ∧ x.ch2MI = ⟨r.ch2MI, 3⟩ ∧ x.ch2SV = ⟨r.ch2SV, 2⟩ ∧ x.ch2SI = ⟨r.ch2SI, 3⟩ ∧
    x.ch2CV = r.st2.getLsbD 0 ∧ x.ch2CC = r.st2.getLsbD 1 ∧ x.ch1CV = r.st1.getLsbD 0 ∧ x.ch1CC = r.st1.getLsbD 1 ∧
    x.serial = r.st2.getLsbD 2 ∧ x.parallel = r.st2.getLsbD 3 ∧ x.output = r.st2.getLsbD 5) ∧
  (∀ r : RspFields, rspBytes r =
    [0xF7, r.h0, r.h1, r.h2, r.h3, r.st2, r.st1,
      hi8 r.ch2MV, lo8 r.ch2MV, hi8 r.ch2MI, lo8 r.ch2MI, hi8 r.ch1MV, lo8 r.ch1MV, hi8 r.ch1MI, lo8 r.ch1MI,
      hi8 r.ch2SV, lo8 r.ch2SV, hi8 r.ch2SI, lo8 r.ch2SI, hi8 r.ch1SV, lo8 r.ch1SV, hi8 r.ch1SI, lo8 r.ch1SI,
      r.crcLo, r.crcHi, 0xFD]) ∧
  ∀ raw : U16, fixedValue ⟨raw, 2⟩ = (raw.toNat : ℚ) / 100 ∧ fixedValue ⟨raw, 3⟩ = (raw.toNat : ℚ) / 1000

/-- Where a ParseError can come from (60_exceptions.md section 1, 44_receive.md section 1); that PARSE reports it is
`ParseDecodesOrReportsInOrder`, and the shape test of the second clause is the spec's decision D12 (log entry 16). -/
def Obligations.ParseErrorOnlyFromParse : Prop :=
  (∀ (i : Instr) (s t : State) (e : ParseReason), exec i s = .next t →
    t.results = s.results ++ [.parseError e] →
    t = { s with results := s.results ++ [.parseError e] } ∧
    ∃ f : Bytes, i = .parse f ∧ (f.length < 26 ∨ f.head? ≠ some 0xF7 ∨ f.getLast? ≠ some 0xFD)) ∧
  ∀ c : Bytes, validateFrame c = true → isReadallShape c = true → ∃ x : Snapshot, parseFrame c = .ok x

/-- X.PUSH (43_extract.md section 1); the capacity is the spec's decision D13, the empty chunk D19. -/
def Obligations.PushAppendsTheChunk : Prop :=
  (∀ (P : Params) (c : Bytes), decode P (.request { op := 0x30, bytes := c }) = .ok (.xPush c)) ∧
  ∀ (s : State) (c : Bytes), s.run = .running →
    (∀ n, s.params.accCap = some n → s.acc.length + c.length ≤ n) →
    exec (.xPush c) s = .next { s with acc := s.acc ++ c, results := s.results ++ [.done] }

/-- The capacity fault (20_memory.md section 5; the spec's decision D13); that an arriving WIRE frame overflows like RX.STEP of its
bytes is the model's choice (log entry 10). -/
def Obligations.OverflowFaultsBeforeAnyChange : Prop :=
  ∀ (s : State) (c : Bytes) (n : Nat) (i : Instr), s.run = .running → s.params.accCap = some n →
    n < s.acc.length + c.length → i = .xPush c ∨ i = .rxStep c ∨ i.frameBytes = some c →
    exec i s = .next { s with run := .faulted .accOverflow, results := s.results ++ [.fault .accOverflow] }

/-- X.POP (R171). -/
def Obligations.PopFollowsItsSixSteps : Prop :=
  (∀ P : Params, decode P (.request { op := 0x31 }) = .ok .xPop) ∧
  ∀ s : State, s.run = .running →
    (0xF7 ∉ s.acc →
      exec .xPop s = .next { s with acc := [], results := s.results ++ [.candidate none] }) ∧
    (∀ g b : Bytes, s.acc = g ++ 0xF7 :: b → 0xF7 ∉ g → 0xFD ∉ b →
      exec .xPop s = .next { s with acc := 0xF7 :: b, results := s.results ++ [.candidate none] }) ∧
    (∀ g b r : Bytes, s.acc = g ++ 0xF7 :: (b ++ 0xFD :: r) → 0xF7 ∉ g → 0xFD ∉ b →
      exec .xPop s = .next { s with
        acc := r, results := s.results ++ [.candidate (some (0xF7 :: (b ++ [0xFD])))] }) ∧
    (0xF7 ∉ s.acc ∨ ∃ g b : Bytes, 0xF7 ∉ g ∧ 0xFD ∉ b ∧
      (s.acc = g ++ 0xF7 :: b ∨ ∃ r : Bytes, s.acc = g ++ 0xF7 :: (b ++ 0xFD :: r)))

/-- The resting state (43_extract.md section 2), which the spec derives. -/
def Obligations.PopReturningNoneRests : Prop :=
  ∀ s t : State, exec .xPop s = .next t → t.results = s.results ++ [.candidate none] →
    Resting t.acc ∧ exec .xPop t = .next { t with results := t.results ++ [.candidate none] }

/-- The candidate's shape (43_extract.md section 2), which the spec derives. -/
def Obligations.CandidatesHaveTheirShape : Prop :=
  ∀ (s t : State) (c : Bytes), exec .xPop s = .next t → t.results = s.results ++ [.candidate (some c)] →
    CandidateShape c ∧ ∃ g : Bytes, s.acc = g ++ c ++ t.acc ∧ 0xF7 ∉ g

/-- The stream law (43_extract.md section 2), which the spec derives; `none` is an X.POP, `some c` an X.PUSH. -/
def Obligations.StreamLaw : Prop :=
  ∀ (s : State) (ops : List (Option Bytes)) (rest : List HostEvent), s.run = .running → s.acc = [] →
    s.params.accCap = none →
    s.pending = ops.map (fun o => match o with | none => encode .xPop | some c => encode (.xPush c)) ++ rest →
    ∃ (t : State) (rs : List Result), runFor ops.length s = .next t ∧ t.results = s.results ++ rs ∧
      t.pending = rest ∧
      candidatesOf rs <+: delimit (ops.flatMap (fun o => o.getD [])) ∧
      (rs.getLast? = some (.candidate none) → candidatesOf rs = delimit (ops.flatMap (fun o => o.getD [])))

/-- RX.STEP (44_receive.md section 1), in the terms of the stream law; the filter is the spec's decisions D1 and D12. -/
def Obligations.RxStepDeliversTheDelimitedStream : Prop :=
  (∀ (P : Params) (c : Bytes), decode P (.request { op := 0x32, bytes := c }) = .ok (.rxStep c)) ∧
  ∀ (s : State) (c : Bytes), s.run = .running →
    (∀ n, s.params.accCap = some n → s.acc.length + c.length ≤ n) →
    exec (.rxStep c) s = .next { s with
      acc := undelimited (s.acc ++ c)
      results := s.results ++ [.snapshots (deliver (delimit (s.acc ++ c)))] } ∧
    Resting (undelimited (s.acc ++ c))

/-- The composition RX.STEP is defined as (44_receive.md section 1, 30_encoding.md section 6); the filter in `deliver` is the spec's
decisions D1 and D12 (log entry 16). -/
def Obligations.RxStepIsPushThenPops : Prop :=
  ∀ (s t : State) (c : Bytes) (k : Nat) (rest : List HostEvent),
    s.pending = encode (.xPush c) :: (List.replicate k (encode .xPop) ++ rest) →
    runFor (k + 1) s = .next t → t.results.getLast? = some (.candidate none) →
    ∃ rs : List Result, t.results = s.results ++ rs ∧
      exec (.rxStep c) { s with pending := rest } = .next { s with
        pending := rest, acc := t.acc, results := s.results ++ [.snapshots (deliver (candidatesOf rs))] }

/-- The delivered stream (44_receive.md section 1), which the spec derives; the filter in `deliver`, its length test among it, is
the spec's decisions D1 and D12 (log entry 16). -/
def Obligations.DeliveredStreamIgnoresChunking : Prop :=
  ∀ (s : State) (chunks : List Bytes) (rest : List HostEvent), s.run = .running → s.acc = [] →
    s.params.accCap = none → s.pending = chunks.map (fun c => encode (.rxStep c)) ++ rest →
    ∃ (t : State) (rs : List Result), runFor chunks.length s = .next t ∧ t.results = s.results ++ rs ∧
      t.pending = rest ∧ deliveredOf rs = deliver (delimit chunks.flatten) ∧ Resting t.acc

/-- A delivered response (44_receive.md section 1); that WIRE.RSP is RX.STEP of its bytes is the model's choice (log entry 10). -/
def Obligations.CleanResponseIsDelivered : Prop :=
  ∀ (s : State) (r : RspFields), s.run = .running → s.params.accCap = none → 0xF7 ∉ s.acc →
    Deliverable (rspBytes r) →
    exec (.wireRsp r) s = .next { s with
      acc := []
      results := s.results ++ [.snapshots [
        { ch1MV := ⟨r.ch1MV, 2⟩, ch1MI := ⟨r.ch1MI, 3⟩, ch1SV := ⟨r.ch1SV, 2⟩, ch1SI := ⟨r.ch1SI, 3⟩
          ch1CV := r.st1.getLsbD 0, ch1CC := r.st1.getLsbD 1
          ch2MV := ⟨r.ch2MV, 2⟩, ch2MI := ⟨r.ch2MI, 3⟩, ch2SV := ⟨r.ch2SV, 2⟩, ch2SI := ⟨r.ch2SI, 3⟩
          ch2CV := r.st2.getLsbD 0, ch2CC := r.st2.getLsbD 1
          output := r.st2.getLsbD 5, serial := r.st2.getLsbD 2, parallel := r.st2.getLsbD 3 }]] } ∧
    exec (.rxStep (rspBytes r)) s = exec (.wireRsp r) s

/-- Lost responses (44_receive.md section 1), which the spec derives. -/
def Obligations.ResponseWithEarlyEndMarkerIsLost : Prop :=
  ∀ (s : State) (f : Bytes), s.run = .running → s.acc = [] → s.params.accCap = none →
    validateFrame f = true → f.length = 26 → 0xFD ∈ f.dropLast →
    exec (.rxStep f) s = .next { s with results := s.results ++ [.snapshots []] } ∧
    ∀ g : Bytes, exec (.rxStep (f ++ g)) s = exec (.rxStep g) s

/-- The stale partial frame (70_reset_and_hazards.md section 3), which the spec derives. -/
def Obligations.StalePartialFrameLosesOneResponse : Prop :=
  ∀ (s : State) (f g : Bytes), s.run = .running → s.params.accCap = none → s.acc.head? = some 0xF7 →
    0xFD ∉ s.acc → Deliverable f → Deliverable g →
    ∃ t : State, t = { s with acc := [], results := s.results ++ [.snapshots []] } ∧
      exec (.rxStep f) s = .next t ∧
      exec (.rxStep g) t = .next { t with results := t.results ++ [.snapshots [snapshotOf g]] }

/-- A frame on the line as one transport read: the model's meaning of the WIRE rows (log entry 10). -/
def Obligations.WireFramesAreReceived : Prop :=
  ∀ (i : Instr) (s : State) (f : Bytes), i.frameBytes = some f → s.run = .running →
    (∀ n, s.params.accCap = some n → s.acc.length + f.length ≤ n) →
    exec i s = .next { s with
      acc := undelimited (s.acc ++ f)
      results := s.results ++ [.snapshots (deliver (delimit (s.acc ++ f)))] }

/-- Echoed commands are dropped by the shape test (44_receive.md section 1; the spec's decision D12; log entry 10). -/
def Obligations.EchoedCommandsAreDropped : Prop :=
  ∀ (i : Instr) (s : State) (f : Bytes), i.frameBytes = some f → mnemonicOf i ≠ "WIRE.RSP" →
    s.run = .running → s.acc = [] → s.params.accCap = none →
    exec i s = .next { s with results := s.results ++ [.snapshots []] }

/-- The frame of the operations without side effect (20_memory.md section 3). -/
def Obligations.TransmitAndPureOperationsKeepTheState : Prop :=
  ∀ (i : Instr) (s t : State), sideOf i = .transmit ∨ sideOf i = .pure → exec i s = .next t →
    t.acc = s.acc ∧ t.params = s.params ∧ t.pending = s.pending ∧
    ∃ r : Result, t.results = s.results ++ [r] ∧
      ((isFault r = false ∧ t.run = s.run) ∨ ∃ f : ModelFault, r = .fault f ∧ t.run = .faulted f)

/-- The frame of the operations that own `ACC` (20_memory.md section 3); the overflow is the spec's decision D13, and that an arriving
WIRE frame is RX.STEP of its bytes is the model's choice (log entry 10). -/
def Obligations.ReceiveOperationsWriteOnlyTheAccumulator : Prop :=
  ∀ (i : Instr) (s t : State), sideOf i = .receive ∨ sideOf i = .control → exec i s = .next t →
    t.params = s.params ∧ t.pending = s.pending ∧
    ∃ r : Result, t.results = s.results ++ [r] ∧
      ((isFault r = false ∧ t.run = s.run) ∨
        (r = .fault .accOverflow ∧ t.run = .faulted .accOverflow ∧ t.acc = s.acc))

/-- Side effects (R49). -/
def Obligations.SideEffectsAreTheReceiveSidesAlone : Prop :=
  (∀ (i : Instr) (s t : State), sideOf i = .transmit ∨ sideOf i = .pure → exec i s = .next t →
    t.acc = s.acc ∧ ∃ r : Result, t.results = s.results ++ [r] ∧
      ∀ s' : State, s'.params = s.params → s'.run = .running →
        ∃ t' : State, exec i s' = .next t' ∧ t'.results = s'.results ++ [r] ∧ t'.acc = s'.acc) ∧
  (∃ s t : State, exec .xPop s = .next t ∧ t.results = s.results ++ [.candidate none] ∧ t.acc ≠ s.acc) ∧
  (∃ (s t u : State) (c : Bytes), exec .xPop s = .next t ∧ exec .xPop t = .next u ∧
    t.results = s.results ++ [.candidate (some c)] ∧ u.results = t.results ++ [.candidate none]) ∧
  (∃ (s t : State) (c : Bytes), exec (.xPush c) s = .next t ∧ t.acc ≠ s.acc) ∧
  (∃ (s t : State) (c : Bytes), exec (.rxStep c) s = .next t ∧ t.acc ≠ s.acc) ∧
  (∃ s t : State, exec .reset s = .next t ∧ t.acc ≠ s.acc)

/-- The parameters are written by no operation (10_state.md section 5, decision D23); one result a request (00_scope.md
section 4). The queue and the result list are the model's own (log entries 5 and 6). -/
def Obligations.StepKeepsParametersAndHistory : Prop :=
  ∀ s t : State, step s = .next t →
    t.params = s.params ∧
    ((s.pending = [] ∧ t = s) ∨
      ∃ (e : HostEvent) (r : Result), s.pending = e :: t.pending ∧ t.results = s.results ++ [r])

/-- The invariant at reset (log entry 2 for the addresses of `State.reset`). -/
def Obligations.InvariantHoldsAtReset : Prop :=
  Inv State.reset ∧ ∀ P : Params, P.distinct = true → Inv (State.instantiate P)

/-- The invariant of the machine, over every state. The capacity fault and the terminal fault are the spec's decisions D13 and D15;
what an arriving frame does is the model's choice (log entries 10 and 12). -/
def Obligations.EveryStepKeepsTheInvariant : Prop :=
  ∀ s t : State, Inv s → step s = .next t → Inv t

/-- Decode and encode agree on the thirteen operations (30_encoding.md section 1; the codes are the spec's decision D3). -/
def Obligations.RequestsRoundTrip : Prop :=
  ∀ (P : Params) (i : Instr), i.frameBytes = none → decode P (encode i) = .ok i

/-- Decode and encode agree on the wire formats; the condition on the parameters is the model's (log entry 11). -/
def Obligations.WireFramesRoundTrip : Prop :=
  ∀ (P : Params) (i : Instr) (f : Bytes), CommandsApart P → i.frameBytes = some f → i.wf P = true →
    (∃ p0 p1 a cl ch : Byte, i = .wireSetpar p0 p1 a false cl ch ∧
      decode P (.frame f) = .ok (.wireSetser p0 p1 a false cl ch)) ∨
    decode P (.frame f) = .ok i

/-- The other direction of the round trip, for every frame the decoder accepts. -/
def Obligations.DecodedFramesEncodeToTheirBytes : Prop :=
  ∀ (P : Params) (f : Bytes) (i : Instr), decode P (.frame f) = .ok i → i.frameBytes = some f

/-- Words written out from the spec's table; the operands beside a bare code are log entry 8. -/
def Obligations.KnownWordsDecode : Prop :=
  decodeTableWord 8 0x01 = some (.crc16 [] 0) ∧ decodeTableWord 8 0x10 = some .encReadall ∧
  decodeTableWord 8 0x20 = some (.validate []) ∧ decodeTableWord 8 0x31 = some .xPop ∧
  decodeTableWord 8 0x3F = some .reset ∧ decodeTableWord 8 0x02 = none ∧
  ∀ P : Params, decode P (.frame [0xF7, 0x02, 0x03, 0x04, 0x09, 0xE2, 0xAB, 0xFD]) =
    .ok (.wireReadall 0x02 0x03 0x04 0x09 0xE2 0xAB)

/-- The outcome codes (60_exceptions.md section 1), the spec's decisions. -/
def Obligations.OutcomeCodes : Prop :=
  resultCode (.encodingError .precision) = 0x10 ∧ resultCode (.encodingError .range) = 0x11 ∧
  resultCode (.parseError .short) = 0x20 ∧ resultCode (.parseError .start) = 0x21 ∧
  resultCode (.parseError .noEnd) = 0x22 ∧ resultCode (.fault .illegalOp) = 0xF0 ∧
  resultCode (.fault .illegalOperand) = 0xF1 ∧ resultCode (.fault .crcLengthRange) = 0xF2 ∧
  resultCode (.fault .accOverflow) = 0xF3 ∧
  ∀ r : Result, (∀ e, r ≠ .encodingError e) → (∀ e, r ≠ .parseError e) → (∀ f, r ≠ .fault f) → resultCode r = 0x00
end

