-- ==== Sys2Proof/Laws/Bits.lean ====
section
/-! SUPPORT. Splitting a `u16` into its bytes and building it from them are inverse (rule R10 of 00_scope.md). -/

namespace Sys2Proof.Machine

/-- The high byte of a built word. -/
@[simp] theorem hi8_be16 (a b : Byte) : hi8 (be16 a b) = a := by
  apply BitVec.eq_of_getLsbD_eq
  intro i hi
  have h16 : 8 + i < 16 := by omega
  simp [hi8, be16, zext16, hi, h16]

/-- The low byte of a built word. -/
@[simp] theorem lo8_be16 (a b : Byte) : lo8 (be16 a b) = b := by
  apply BitVec.eq_of_getLsbD_eq
  intro i hi
  have h16 : i < 16 := by omega
  simp [lo8, be16, zext16, hi, h16]

/-- A word built from its own bytes. -/
@[simp] theorem be16_hi8_lo8 (v : U16) : be16 (hi8 v) (lo8 v) = v := by
  apply BitVec.eq_of_getLsbD_eq
  intro i hi
  by_cases h : i < 8
  · simp [hi8, lo8, be16, zext16, hi, h]
  · have h' : i - 8 < 8 := by omega
    have h'' : 8 + (i - 8) = i := by omega
    simp [hi8, lo8, be16, zext16, hi, h, h', h'']

/-- A `u16` is its two bytes. -/
theorem be16_inj {a b c d : Byte} : be16 a b = be16 c d ↔ a = c ∧ b = d := by
  constructor
  · intro h
    exact ⟨by simpa using congrArg hi8 h, by simpa using congrArg lo8 h⟩
  · rintro ⟨rfl, rfl⟩
    rfl

end Sys2Proof.Machine
end

