-- ==== Sys2Proof/Laws/Config.lean ====
section
/-! SUPPORT. The value addresses of the instance are pairwise distinct, whatever the uninterpreted choice is (rule R8 of
00_scope.md; log entry 2). -/

namespace Sys2Proof

theorem Config.params_distinct : Config.params.distinct = true := by
  have ne (a b : Fin (2 ^ 8)) (h : a ≠ b) : (BitVec.ofFin a != BitVec.ofFin b) = true :=
    bne_iff_ne.mpr fun e => h (congrArg BitVec.toFin e)
  have skip (a : Fin 256) (x y : Fin 255) (h : x ≠ y) : a.succAbove x ≠ a.succAbove y :=
    fun e => h (Fin.succAbove_right_injective e)
  have skip' (a : Fin 255) (x y : Fin 254) (h : x ≠ y) : a.succAbove x ≠ a.succAbove y :=
    fun e => h (Fin.succAbove_right_injective e)
  simp only [Params.distinct, Config.params, Config.secondAddr, Config.thirdAddr, Config.fourthAddr, Bool.and_eq_true]
  refine ⟨⟨⟨⟨⟨ne _ _ ?_, ne _ _ ?_⟩, ne _ _ ?_⟩, ne _ _ ?_⟩, ne _ _ ?_⟩, ne _ _ ?_⟩
  · exact (Fin.succAbove_ne _ _).symm
  · exact (Fin.succAbove_ne _ _).symm
  · exact (Fin.succAbove_ne _ _).symm
  · exact skip _ _ _ (Fin.succAbove_ne _ _).symm
  · exact skip _ _ _ (Fin.succAbove_ne _ _).symm
  · exact skip _ _ _ (skip' _ _ _ (Fin.succAbove_ne _ _).symm)

end Sys2Proof
end

