-- ==== Sys2Proof/Laws/Crc.lean ====
section
/-! SUPPORT. What the CRC and the frame builder do to appended bytes (rules R101 and R110). -/

namespace Sys2Proof.Machine

/-- The CRC of a whole sequence is the fold over it. -/
theorem crc16_length (s : Bytes) : crc16 s s.length = s.foldl crcUpdate crcInit := by simp [crc16]

/-- Bytes after the first `n` do not matter. -/
theorem crc16_append_left (s t : Bytes) : crc16 (s ++ t) s.length = crc16 s s.length := by simp [crc16]

/-- `mkframe` adds three bytes. -/
@[simp] theorem mkframe_length (body : Bytes) : (mkframe body).length = body.length + 3 := by simp [mkframe]

/-- The embedded CRC of a built frame is the CRC of its body. -/
theorem embeddedCrc_mkframe (body : Bytes) : embeddedCrc (mkframe body) = crc16 body body.length := by
  have h2 : body.length + 3 - 2 = body.length + 1 := by omega
  simp [embeddedCrc, mkframe, byteAt, h2]

/-- The CRC VALIDATE computes over a built frame is that of its body. -/
theorem crc16_mkframe (body : Bytes) : crc16 (mkframe body) ((mkframe body).length - 3) = crc16 body body.length := by
  rw [mkframe_length, Nat.add_sub_cancel, mkframe]
  exact crc16_append_left _ _

end Sys2Proof.Machine
end

