-- ==== Sys2Proof/Laws/State.lean ====
section
/-! SUPPORT. What each state update does to each field, true by unfolding, so that no proof unfolds a record update. -/

namespace Sys2Proof.Machine

@[simp] theorem record_params (r : Result) (s : State) : (record r s).params = s.params := rfl
@[simp] theorem record_acc (r : Result) (s : State) : (record r s).acc = s.acc := rfl
@[simp] theorem record_run (r : Result) (s : State) : (record r s).run = s.run := rfl
@[simp] theorem record_pending (r : Result) (s : State) : (record r s).pending = s.pending := rfl
@[simp] theorem record_results (r : Result) (s : State) : (record r s).results = s.results ++ [r] := rfl

@[simp] theorem withAcc_params (a : Bytes) (s : State) : (withAcc a s).params = s.params := rfl
@[simp] theorem withAcc_acc (a : Bytes) (s : State) : (withAcc a s).acc = a := rfl
@[simp] theorem withAcc_run (a : Bytes) (s : State) : (withAcc a s).run = s.run := rfl
@[simp] theorem withAcc_pending (a : Bytes) (s : State) : (withAcc a s).pending = s.pending := rfl
@[simp] theorem withAcc_results (a : Bytes) (s : State) : (withAcc a s).results = s.results := rfl

@[simp] theorem enterFault_params (f : ModelFault) (s : State) : (enterFault f s).params = s.params := rfl
@[simp] theorem enterFault_acc (f : ModelFault) (s : State) : (enterFault f s).acc = s.acc := rfl
@[simp] theorem enterFault_run (f : ModelFault) (s : State) : (enterFault f s).run = .faulted f := rfl
@[simp] theorem enterFault_pending (f : ModelFault) (s : State) : (enterFault f s).pending = s.pending := rfl
@[simp] theorem enterFault_results (f : ModelFault) (s : State) :
    (enterFault f s).results = s.results ++ [.fault f] := rfl

@[simp] theorem present_params (e : HostEvent) (s : State) : (present e s).params = s.params := rfl
@[simp] theorem present_acc (e : HostEvent) (s : State) : (present e s).acc = s.acc := rfl
@[simp] theorem present_run (e : HostEvent) (s : State) : (present e s).run = s.run := rfl
@[simp] theorem present_pending (e : HostEvent) (s : State) : (present e s).pending = e :: s.pending := rfl
@[simp] theorem present_results (e : HostEvent) (s : State) : (present e s).results = s.results := rfl

@[simp] theorem instantiate_params (P : Params) : (State.instantiate P).params = P := rfl
@[simp] theorem instantiate_acc (P : Params) : (State.instantiate P).acc = [] := rfl
@[simp] theorem instantiate_run (P : Params) : (State.instantiate P).run = .running := rfl
@[simp] theorem instantiate_pending (P : Params) : (State.instantiate P).pending = [] := rfl
@[simp] theorem instantiate_results (P : Params) : (State.instantiate P).results = [] := rfl

end Sys2Proof.Machine
end

