-- ==== Sys2Proof/Laws/Ops.lean ====
section
/-! SUPPORT. One lemma per shared operation that says what it can do; proofs cite these instead of unfolding it. -/

namespace Sys2Proof.Machine

/-- An operation of a running block takes its next state. -/
@[simp] theorem whenRunning_of_running {s t : State} (h : s.run = .running) : whenRunning s t = .next t := by
  simp [whenRunning, h]

/-- An operation of a faulted block has no step. -/
@[simp] theorem whenRunning_of_faulted {s t : State} {f : ModelFault} (h : s.run = .faulted f) :
    whenRunning s t = .fault (.noStep f) := by
  simp [whenRunning, h]

/-- If an operation answers a next state, the block was running and that state is the one the operation gives. -/
theorem whenRunning_next {s t u : State} (h : whenRunning s t = .next u) : s.run = .running ∧ u = t := by
  unfold whenRunning at h
  split at h
  · next hr => exact ⟨hr, by injection h with h; exact h.symm⟩
  · cases h

/-- An operation never refuses. -/
theorem whenRunning_not_refused {s t : State} {r : Refusal} : whenRunning s t ≠ .refused r := by
  unfold whenRunning
  split <;> simp

/-- What a value command can do: record an encoding error, record one frame, or enter `IllegalOperand`. -/
theorem valueCommand_cases (ch : Nat) (v : Decimal) (scale : Nat) (a1 a2 : Byte) (s : State) :
    (¬(ch = 1 ∨ ch = 2) ∧ valueCommand ch v scale a1 a2 s = enterFault .illegalOperand s) ∨
    ((ch = 1 ∨ ch = 2) ∧ ∃ e, toRaw v scale = .error e ∧
      valueCommand ch v scale a1 a2 s = record (.encodingError e) s) ∨
    ((ch = 1 ∨ ch = 2) ∧ ∃ raw, toRaw v scale = .ok raw ∧
      valueCommand ch v scale a1 a2 s =
        record (.frame (setFrame s.params s.params.fcSet (if ch = 1 then a1 else a2) (hi8 raw) (lo8 raw))) s) := by
  by_cases hc : ch = 1 ∨ ch = 2
  · cases hr : toRaw v scale with
    | error e => exact .inr (.inl ⟨hc, e, rfl, by simp [valueCommand, hc, hr]⟩)
    | ok raw => exact .inr (.inr ⟨hc, raw, rfl, by simp [valueCommand, hc, hr]⟩)
  · exact .inl ⟨hc, by simp [valueCommand, hc]⟩

/-- What X.PUSH can do: append the chunk, or overflow before any change. -/
theorem pushChunk_cases (c : Bytes) (s : State) :
    (fits s.params.accCap s.acc c = true ∧ pushChunk c s = record .done (withAcc (s.acc ++ c) s)) ∨
    (fits s.params.accCap s.acc c = false ∧ pushChunk c s = enterFault .accOverflow s) := by
  cases h : fits s.params.accCap s.acc c <;> simp [pushChunk, h]

/-- What RX.STEP can do: drain the accumulator with the chunk appended, or overflow before any change. -/
theorem receiveChunk_cases (c : Bytes) (s : State) :
    (fits s.params.accCap s.acc c = true ∧
      receiveChunk c s = record (.snapshots (rxDrain ((s.acc ++ c).length + 1) (s.acc ++ c)).1)
        (withAcc (rxDrain ((s.acc ++ c).length + 1) (s.acc ++ c)).2 s)) ∨
    (fits s.params.accCap s.acc c = false ∧ receiveChunk c s = enterFault .accOverflow s) := by
  cases h : fits s.params.accCap s.acc c <;> simp [receiveChunk, h]

/-- A byte sequence without `b` has no offset of it. -/
theorem find_of_not_mem {s : Bytes} {b : Byte} (h : b ∉ s) : find s b = none := by
  simp only [find, List.findIdx?_eq_none_iff, beq_eq_false_iff_ne]
  rintro x hx rfl
  exact h hx

/-- The first `b` stands after a part without it. -/
theorem find_append_cons {g t : Bytes} {b : Byte} (h : b ∉ g) : find (g ++ b :: t) b = some g.length := by
  have hg : List.findIdx? (· == b) g = none := find_of_not_mem h
  simp [find, List.findIdx?_append, hg, List.findIdx?_cons]

/-- A slice to the end is what is left after dropping. -/
@[simp] theorem slice_to_end (s : Bytes) (a : Nat) : slice s a s.length = s.drop a := by simp [slice]

/-- The slice through the byte after a prefix. -/
theorem slice_through (x r : Bytes) (y : Byte) : slice (x ++ y :: r) 0 (x.length + 1) = x ++ [y] := by
  have h : x ++ y :: r = (x ++ [y]) ++ r := by simp
  rw [h]
  simp only [slice, List.drop_zero]
  exact List.take_left' (by simp)

/-- What follows the byte after a prefix. -/
theorem drop_through (x r : Bytes) (y : Byte) : (x ++ y :: r).drop (x.length + 1) = r := by
  have h : x ++ y :: r = (x ++ [y]) ++ r := by simp
  rw [h]
  exact List.drop_left' (by simp)

/-- The start marker is not the end marker, so a frame's first byte never ends it. -/
theorem endMarker_not_mem_start {b : Bytes} (hb : endMarker ∉ b) : endMarker ∉ startMarker :: b := by
  have h : endMarker ≠ startMarker := by decide
  rintro (_ | ⟨_, hm⟩)
  exact hb hm

/-- Without a start marker X.POP discards everything. -/
theorem popAcc_no_start {acc : Bytes} (h : startMarker ∉ acc) : popAcc acc = (none, []) := by
  simp [popAcc, find_of_not_mem h]

/-- With a start marker and no end marker after it X.POP waits, less what stands before the start marker. -/
theorem popAcc_no_end {g b : Bytes} (hg : startMarker ∉ g) (hb : endMarker ∉ b) :
    popAcc (g ++ startMarker :: b) = (none, startMarker :: b) := by
  have he : find (startMarker :: b) endMarker = none := find_of_not_mem (endMarker_not_mem_start hb)
  simp only [popAcc, find_append_cons hg, slice_to_end, List.drop_left, he]

/-- With both, X.POP returns the bytes from the first start marker to the first end marker after it. -/
theorem popAcc_frame {g b r : Bytes} (hg : startMarker ∉ g) (hb : endMarker ∉ b) :
    popAcc (g ++ startMarker :: (b ++ endMarker :: r)) = (some (startMarker :: (b ++ [endMarker])), r) := by
  have he : find (startMarker :: b ++ endMarker :: r) endMarker = some (startMarker :: b).length :=
    find_append_cons (endMarker_not_mem_start hb)
  have hc : slice (startMarker :: b ++ endMarker :: r) 0 ((startMarker :: b).length + 1) = startMarker :: b ++ [endMarker] :=
    slice_through _ _ _
  have hr : (startMarker :: b ++ endMarker :: r).drop ((startMarker :: b).length + 1) = r := drop_through _ _ _
  simp only [List.cons_append] at he hc hr
  simp only [popAcc, find_append_cons hg, slice_to_end, List.drop_left, he, hc, hr]

/-- What X.POP can find in an accumulator: no start marker; a start marker that no end marker follows; or a frame. -/
theorem acc_cases (acc : Bytes) :
    startMarker ∉ acc ∨
    (∃ g b, acc = g ++ startMarker :: b ∧ startMarker ∉ g ∧ endMarker ∉ b) ∨
    (∃ g b r, acc = g ++ startMarker :: (b ++ endMarker :: r) ∧ startMarker ∉ g ∧ endMarker ∉ b) := by
  by_cases h : startMarker ∈ acc
  · obtain ⟨g, t, ht, hg⟩ := List.eq_append_cons_of_mem h
    by_cases he : endMarker ∈ t
    · obtain ⟨b, r, hr, hb⟩ := List.eq_append_cons_of_mem he
      exact .inr (.inr ⟨g, b, r, by rw [ht, hr], hg, hb⟩)
    · exact .inr (.inl ⟨g, t, ht, hg, he⟩)
  · exact .inl h

/-- A candidate takes at least two bytes from the accumulator. -/
theorem popAcc_shortens {acc rest c : Bytes} (h : popAcc acc = (some c, rest)) : rest.length + 2 ≤ acc.length := by
  obtain hs | ⟨g, b, rfl, hg, hb⟩ | ⟨g, b, r, rfl, hg, hb⟩ := acc_cases acc
  · simp [popAcc_no_start hs] at h
  · simp [popAcc_no_end hg hb] at h
  · rw [popAcc_frame hg hb] at h
    injection h with _ h
    subst h
    simp
    omega

/-- More pops than the accumulator has bytes change nothing: RX.STEP's loop has ended by itself. -/
theorem rxDrain_enough : ∀ (k m : Nat) (acc : Bytes), acc.length < k → acc.length < m → rxDrain k acc = rxDrain m acc
  | 0, _, _, hk, _ => absurd hk (Nat.not_lt_zero _)
  | _ + 1, 0, _, _, hm => absurd hm (Nat.not_lt_zero _)
  | k + 1, m + 1, acc, hk, hm => by
    rcases hp : popAcc acc with ⟨_ | c, rest⟩
    · simp [rxDrain, hp]
    · have hl := popAcc_shortens hp
      have ih := rxDrain_enough k m rest (by omega) (by omega)
      simp [rxDrain, hp, ih]

end Sys2Proof.Machine
end

