-- ==== Sys2Proof/Laws/PerInstr.lean ====
section
/-! SUPPORT. Statements about every instruction as syntax, one lemma per constructor. Family `EncodedForm`: what the
host presents for an instruction is a request with an assigned code (R61) or a frame with both markers and one of the
three lengths (R63, R75). -/

namespace Sys2Proof.Laws.EncodedForm

open Sys2Proof.Machine

/-- An instruction is presented as a request with an assigned code, or as a frame with its markers and a length of
the protocol. -/
def Statement (i : Instr) : Prop :=
  (∃ r : Request, encode i = .request r ∧
    r.op ∈ [0x01, 0x10, 0x11, 0x12, 0x13, 0x14, 0x15, 0x20, 0x21, 0x30, 0x31, 0x32, 0x3F]) ∨
  ∃ f : Bytes, encode i = .frame f ∧ f.head? = some startMarker ∧ f.getLast? = some endMarker ∧
    (f.length = raLen ∨ f.length = setLen ∨ f.length = rspLen)

theorem crc16 (s : Bytes) (n : Nat) : Statement (.crc16 s n) := .inl ⟨_, rfl, by simp⟩
theorem encReadall : Statement .encReadall := .inl ⟨_, rfl, by simp⟩
theorem encSetv (ch : Nat) (v : Decimal) : Statement (.encSetv ch v) := .inl ⟨_, rfl, by simp⟩
theorem encSeti (ch : Nat) (v : Decimal) : Statement (.encSeti ch v) := .inl ⟨_, rfl, by simp⟩
theorem encSetout (b : Bool) : Statement (.encSetout b) := .inl ⟨_, rfl, by simp⟩
theorem encSetser (b : Bool) : Statement (.encSetser b) := .inl ⟨_, rfl, by simp⟩
theorem encSetpar (b : Bool) : Statement (.encSetpar b) := .inl ⟨_, rfl, by simp⟩
theorem validate (f : Bytes) : Statement (.validate f) := .inl ⟨_, rfl, by simp⟩
theorem parse (f : Bytes) : Statement (.parse f) := .inl ⟨_, rfl, by simp⟩
theorem xPush (c : Bytes) : Statement (.xPush c) := .inl ⟨_, rfl, by simp⟩
theorem xPop : Statement .xPop := .inl ⟨_, rfl, by simp⟩
theorem rxStep (c : Bytes) : Statement (.rxStep c) := .inl ⟨_, rfl, by simp⟩
theorem reset : Statement .reset := .inl ⟨_, rfl, by simp⟩
theorem wireReadall (p0 p1 b0 b1 crcLo crcHi : Byte) : Statement (.wireReadall p0 p1 b0 b1 crcLo crcHi) :=
  .inr ⟨_, rfl, rfl, rfl, .inl rfl⟩
theorem wireSetv1 (p0 p1 fc addr valHi valLo crcLo crcHi : Byte) :
    Statement (.wireSetv1 p0 p1 fc addr valHi valLo crcLo crcHi) := .inr ⟨_, rfl, rfl, rfl, .inr (.inl rfl)⟩
theorem wireSetv2 (p0 p1 fc addr valHi valLo crcLo crcHi : Byte) :
    Statement (.wireSetv2 p0 p1 fc addr valHi valLo crcLo crcHi) := .inr ⟨_, rfl, rfl, rfl, .inr (.inl rfl)⟩
theorem wireSeti1 (p0 p1 fc addr valHi valLo crcLo crcHi : Byte) :
    Statement (.wireSeti1 p0 p1 fc addr valHi valLo crcLo crcHi) := .inr ⟨_, rfl, rfl, rfl, .inr (.inl rfl)⟩
theorem wireSeti2 (p0 p1 fc addr valHi valLo crcLo crcHi : Byte) :
    Statement (.wireSeti2 p0 p1 fc addr valHi valLo crcLo crcHi) := .inr ⟨_, rfl, rfl, rfl, .inr (.inl rfl)⟩
theorem wireSetout (p0 p1 addr : Byte) (x : Bool) (crcLo crcHi : Byte) :
    Statement (.wireSetout p0 p1 addr x crcLo crcHi) := .inr ⟨_, rfl, rfl, rfl, .inr (.inl rfl)⟩
theorem wireSetser (p0 p1 addr : Byte) (x : Bool) (crcLo crcHi : Byte) :
    Statement (.wireSetser p0 p1 addr x crcLo crcHi) := .inr ⟨_, rfl, rfl, rfl, .inr (.inl rfl)⟩
theorem wireSetpar (p0 p1 addr : Byte) (x : Bool) (crcLo crcHi : Byte) :
    Statement (.wireSetpar p0 p1 addr x crcLo crcHi) := .inr ⟨_, rfl, rfl, rfl, .inr (.inl rfl)⟩
theorem wireRsp (r : RspFields) : Statement (.wireRsp r) := .inr ⟨_, rfl, rfl, rfl, .inr (.inr rfl)⟩

end Sys2Proof.Laws.EncodedForm
end

