-- ==== Sys2Proof/Tests/Slice0.lean ====
section
/-! SUPPORT. The author's own tests: decoding of words written out from the spec's encodings, the well-formedness
checks, one-step vectors of 95_test_vectors.md, and a witness for the hypotheses of every statement. Expected values
are the spec's. -/

-- One theorem at a time: many small evaluations side by side ask for more threads than the check's memory limit gives.
set_option Elab.async false

namespace Sys2Proof.Machine.Tests

/-- The example configuration `EX` of 92_eei_decisions.md D30, for vectors only. -/
def exParams : Params :=
  { prefix0 := 0x02, prefix1 := 0x03, raBody0 := 0x04, raBody1 := 0x09, fcSet := 0x0A
    addrV1 := 0x11, addrV2 := 0x21, addrI1 := 0x12, addrI2 := 0x22, addrOut := 0x30, addrSerPar := 0x31
    accCap := none }

/-- A block with the example configuration, after reset. -/
def block : State := State.instantiate exParams

/-- The block with an accumulator. -/
def holding (a : Bytes) : State := { block with acc := a }

/-- The block with a finite capacity and an accumulator. -/
def capped (n : Nat) (a : Bytes) : State := { block with params := { exParams with accCap := some n }, acc := a }

/-- The block with events presented. -/
def presented (evs : List HostEvent) : State := { block with pending := evs }

/-- The block after a fault. -/
def broken : State := { block with run := .faulted .illegalOp, results := [.fault .illegalOp] }

/-- The state of a next outcome. -/
def stateOf (o : Host.Outcome State Fault Refusal) : Option State :=
  match o with
  | .next s => some s
  | .fault _ => none
  | .refused _ => none

/-- The last result of a next outcome. -/
def resultOf (o : Host.Outcome State Fault Refusal) : Option Result := (stateOf o).bind (fun s => s.results.getLast?)

/-- The accumulator of a next outcome. -/
def accOf (o : Host.Outcome State Fault Refusal) : Option Bytes := (stateOf o).map (fun s => s.acc)

/-- The reason of a stop. -/
def faultOf (o : Host.Outcome State Fault Refusal) : Option Fault :=
  match o with
  | .next _ => none
  | .fault f => some f
  | .refused _ => none

/-- What the decoder gives on the example configuration. -/
def read (e : HostEvent) : Option Instr :=
  match decode exParams e with
  | .ok i => some i
  | .error _ => none

/-- Whether the decoder rejects, and by which name. -/
def rejected (e : HostEvent) : Option DecodeError :=
  match decode exParams e with
  | .ok _ => none
  | .error d => some d

/-- V-RSP-1. -/
def r1 : Bytes :=
  [0xF7, 0x02, 0x03, 0x04, 0x09, 0x21, 0x02, 0x01, 0xF4, 0x00, 0x64, 0x04, 0xD2, 0x04, 0xD2, 0x01, 0xF4, 0x01, 0xF4, 0x04, 0xE2, 0x07, 0xD0, 0x29, 0x92, 0xFD]

/-- V-RSP-4. -/
def r4 : Bytes :=
  [0xF7, 0x02, 0x03, 0x04, 0x09, 0xD2, 0xFC, 0x00, 0x01, 0x00, 0x02, 0x00, 0x03, 0x00, 0x04, 0x00, 0x05, 0x00, 0x06, 0x00, 0x07, 0x00, 0x08, 0x17, 0xEE, 0xFD]

/-- V-VAL-9. -/
def val9 : Bytes :=
  [0xF7, 0x02, 0x03, 0x04, 0x09, 0x21, 0x02, 0x01, 0xF4, 0x00, 0x64, 0x04, 0xD2, 0x04, 0xD2, 0x01, 0xF4, 0x01, 0xF4, 0x04, 0xE2, 0x07, 0xD0, 0x29, 0x92, 0x00, 0xFD]

/-- V-RX-4. -/
def rx4 : Bytes :=
  [0xF7, 0x02, 0x03, 0x04, 0x09, 0x00, 0x00, 0x00, 0xFD, 0x00, 0x00, 0x00, 0x00, 0x00, 0x00, 0x00, 0x00, 0x00, 0x00, 0x00, 0x00, 0x00, 0x00, 0xA4, 0x1F, 0xFD]

/-- V-RX-6, its first 26 bytes. -/
def rx6 : Bytes :=
  [0xF7, 0x02, 0x03, 0x04, 0x09, 0x00, 0x00, 0x00, 0xFD, 0xF7, 0x00, 0x00, 0x00, 0x00, 0x00, 0x00, 0x00, 0x00, 0x00, 0x00, 0x00, 0x00, 0x00, 0x52, 0x28, 0xFD]

/-- The fields of V-RSP-1. -/
def r1Fields : RspFields :=
  { h0 := 0x02, h1 := 0x03, h2 := 0x04, h3 := 0x09, st2 := 0x21, st1 := 0x02
    ch2MV := 500, ch2MI := 100, ch1MV := 1234, ch1MI := 1234, ch2SV := 500, ch2SI := 500
    ch1SV := 1250, ch1SI := 2000, crcLo := 0x29, crcHi := 0x92 }

/-- The snapshot of V-RSP-1. -/
def r1Snapshot : Snapshot :=
  { ch1MV := ⟨1234, 2⟩, ch1MI := ⟨1234, 3⟩, ch1SV := ⟨1250, 2⟩, ch1SI := ⟨2000, 3⟩, ch1CV := false, ch1CC := true
    ch2MV := ⟨500, 2⟩, ch2MI := ⟨100, 3⟩, ch2SV := ⟨500, 2⟩, ch2SI := ⟨500, 3⟩, ch2CV := true, ch2CC := false
    output := true, serial := false, parallel := false }

/-- The snapshot of V-RSP-4. -/
def r4Snapshot : Snapshot :=
  { ch1MV := ⟨3, 2⟩, ch1MI := ⟨4, 3⟩, ch1SV := ⟨7, 2⟩, ch1SI := ⟨8, 3⟩, ch1CV := false, ch1CC := false
    ch2MV := ⟨1, 2⟩, ch2MI := ⟨2, 3⟩, ch2SV := ⟨5, 2⟩, ch2SI := ⟨6, 3⟩, ch2CV := false, ch2CC := true
    output := false, serial := false, parallel := false }

/-! Decoding, on words written out from R61 and R66 to R69. -/

/-- Code 0x01 (R61). -/
theorem test_decode_crc16 :
    read (.request { op := 0x01, bytes := [0x31], n := 1 }) = some (.crc16 [0x31] 1) := by decide

/-- Code 0x10 (R61). -/
theorem test_decode_encReadall :
    read (.request { op := 0x10 }) = some (.encReadall) := by decide

/-- Code 0x11 (R61). -/
theorem test_decode_encSetv :
    read (.request { op := 0x11, ch := 2, v := ⟨1234, 2⟩ }) = some (.encSetv 2 ⟨1234, 2⟩) := by decide

/-- Code 0x12 (R61). -/
theorem test_decode_encSeti :
    read (.request { op := 0x12, ch := 1, v := ⟨15, 1⟩ }) = some (.encSeti 1 ⟨15, 1⟩) := by decide

/-- Code 0x13 (R61). -/
theorem test_decode_encSetout :
    read (.request { op := 0x13, b := true }) = some (.encSetout true) := by decide

/-- Code 0x14 (R61). -/
theorem test_decode_encSetser :
    read (.request { op := 0x14, b := true }) = some (.encSetser true) := by decide

/-- Code 0x15 (R61). -/
theorem test_decode_encSetpar :
    read (.request { op := 0x15, b := true }) = some (.encSetpar true) := by decide

/-- Code 0x20 (R61). -/
theorem test_decode_validate :
    read (.request { op := 0x20, bytes := [0xF7] }) = some (.validate [0xF7]) := by decide

/-- Code 0x21 (R61). -/
theorem test_decode_parse :
    read (.request { op := 0x21, bytes := [0xF7] }) = some (.parse [0xF7]) := by decide

/-- Code 0x30 (R61). -/
theorem test_decode_xPush :
    read (.request { op := 0x30, bytes := [0xF7] }) = some (.xPush [0xF7]) := by decide

/-- Code 0x31 (R61). -/
theorem test_decode_xPop :
    read (.request { op := 0x31 }) = some (.xPop) := by decide

/-- Code 0x32 (R61). -/
theorem test_decode_rxStep :
    read (.request { op := 0x32, bytes := [0xF7] }) = some (.rxStep [0xF7]) := by decide

/-- Code 0x3F (R61). -/
theorem test_decode_reset :
    read (.request { op := 0x3F }) = some (.reset) := by decide

/-- A frame of the encoder's vectors (section 2.2). -/
theorem test_decode_wireReadall :
    read (.frame [0xF7, 0x02, 0x03, 0x04, 0x09, 0xE2, 0xAB, 0xFD]) = some
      (.wireReadall 0x02 0x03 0x04 0x09 0xE2 0xAB) := by decide

/-- A frame of the encoder's vectors (section 2.2). -/
theorem test_decode_wireSetv1 :
    read (.frame [0xF7, 0x02, 0x03, 0x0A, 0x11, 0x01, 0x04, 0xD2, 0x63, 0x3A, 0xFD]) = some
      (.wireSetv1 0x02 0x03 0x0A 0x11 0x04 0xD2 0x63 0x3A) := by decide

/-- A frame of the encoder's vectors (section 2.2). -/
theorem test_decode_wireSetv2 :
    read (.frame [0xF7, 0x02, 0x03, 0x0A, 0x21, 0x01, 0x04, 0xD2, 0x6C, 0x3A, 0xFD]) = some
      (.wireSetv2 0x02 0x03 0x0A 0x21 0x04 0xD2 0x6C 0x3A) := by decide

/-- A frame of the encoder's vectors (section 2.2). -/
theorem test_decode_wireSeti1 :
    read (.frame [0xF7, 0x02, 0x03, 0x0A, 0x12, 0x01, 0x04, 0xD2, 0x63, 0x7E, 0xFD]) = some
      (.wireSeti1 0x02 0x03 0x0A 0x12 0x04 0xD2 0x63 0x7E) := by decide

/-- A frame of the encoder's vectors (section 2.2). -/
theorem test_decode_wireSeti2 :
    read (.frame [0xF7, 0x02, 0x03, 0x0A, 0x22, 0x01, 0xFF, 0xFF, 0xEF, 0x53, 0xFD]) = some
      (.wireSeti2 0x02 0x03 0x0A 0x22 0xFF 0xFF 0xEF 0x53) := by decide

/-- A frame of the encoder's vectors (section 2.2). -/
theorem test_decode_wireSetout :
    read (.frame [0xF7, 0x02, 0x03, 0x0A, 0x30, 0x01, 0x00, 0x01, 0x2A, 0x5B, 0xFD]) = some
      (.wireSetout 0x02 0x03 0x30 true 0x2A 0x5B) := by decide

/-- A frame of the encoder's vectors (section 2.2). -/
theorem test_decode_wireSetser :
    read (.frame [0xF7, 0x02, 0x03, 0x0A, 0x31, 0x01, 0x00, 0x01, 0x2B, 0xA7, 0xFD]) = some
      (.wireSetser 0x02 0x03 0x31 true 0x2B 0xA7) := by decide

/-- A frame of the encoder's vectors (section 2.2). -/
theorem test_decode_wireSetpar :
    read (.frame [0xF7, 0x02, 0x03, 0x0A, 0x31, 0x01, 0x00, 0x02, 0x6B, 0xA6, 0xFD]) = some
      (.wireSetpar 0x02 0x03 0x31 true 0x6B 0xA6) := by decide

/-- V-RSP-1, field by field. -/
theorem test_decode_wireRsp :
    read (.frame r1) = some (.wireRsp r1Fields) := by decide

/-- A rejection by name. -/
theorem test_reject_unassigned_code :
    rejected (.request { op := 0x02 }) =
      some (.illegalOp 0x02) := by decide

/-- A rejection by name. -/
theorem test_reject_length :
    rejected (.frame [0xF7, 0x01, 0xFD]) =
      some (.frameLength 3) := by decide

/-- A rejection by name. -/
theorem test_reject_no_start :
    rejected (.frame [0x00, 0x02, 0x03, 0x04, 0x09, 0xE2, 0xAB, 0xFD]) =
      some (.noStart) := by decide

/-- A rejection by name. -/
theorem test_reject_no_end :
    rejected (.frame [0xF7, 0x02, 0x03, 0x04, 0x09, 0xE2, 0xAB, 0x00]) =
      some (.noEnd) := by decide

/-- A rejection by name. -/
theorem test_reject_length_field :
    rejected (.frame [0xF7, 0x02, 0x03, 0x0A, 0x11, 0x02, 0x04, 0xD2, 0x63, 0x3A, 0xFD]) =
      some (.lengthField 0x02) := by decide

/-- A rejection by name. -/
theorem test_reject_no_command :
    rejected (.frame [0xF7, 0x02, 0x03, 0x0A, 0x31, 0x01, 0x00, 0x03, 0x63, 0x3A, 0xFD]) =
      some (.noCommand 0x0A 0x31 0x00 0x03) := by decide

/-- The first byte of a frame is bits 7..0 of its word (log entry 13). -/
theorem test_table_word_of_bytes :
    tableEvent 64 0xFDABE209040302F7 = .frame [0xF7, 0x02, 0x03, 0x04, 0x09, 0xE2, 0xAB, 0xFD] := by decide

/-! Well-formedness: a well-formed term and an ill-formed one for each check. -/

/-- R62, R63, R66 or R68. -/
theorem test_wf_crc_length :
    Instr.wf exParams (.crc16 [0x31, 0x32] 2) = true ∧
      Instr.wf exParams (.crc16 [0x31, 0x32] 3) = false := by decide

/-- R62, R63, R66 or R68. -/
theorem test_wf_setv_channel :
    Instr.wf exParams (.encSetv 2 ⟨0, 0⟩) = true ∧
      Instr.wf exParams (.encSetv 3 ⟨0, 0⟩) = false := by decide

/-- R62, R63, R66 or R68. -/
theorem test_wf_seti_channel :
    Instr.wf exParams (.encSeti 1 ⟨0, 0⟩) = true ∧
      Instr.wf exParams (.encSeti 0 ⟨0, 0⟩) = false := by decide

/-- R62, R63, R66 or R68. -/
theorem test_wf_readall_prefix0 :
    Instr.wf exParams (.wireReadall 0x02 0x03 0x04 0x09 0xE2 0xAB) = true ∧
      Instr.wf exParams (.wireReadall 0x01 0x03 0x04 0x09 0xE2 0xEF) = false := by decide +kernel

/-- R62, R63, R66 or R68. -/
theorem test_wf_readall_prefix1 :
    Instr.wf exParams (.wireReadall 0x02 0x03 0x04 0x09 0xE2 0xAB) = true ∧
      Instr.wf exParams (.wireReadall 0x02 0x01 0x04 0x09 0x43 0x6B) = false := by decide +kernel

/-- R62, R63, R66 or R68. -/
theorem test_wf_readall_body0 :
    Instr.wf exParams (.wireReadall 0x02 0x03 0x04 0x09 0xE2 0xAB) = true ∧
      Instr.wf exParams (.wireReadall 0x02 0x03 0x01 0x09 0xE1 0xFB) = false := by decide +kernel

/-- R62, R63, R66 or R68. -/
theorem test_wf_readall_body1 :
    Instr.wf exParams (.wireReadall 0x02 0x03 0x04 0x09 0xE2 0xAB) = true ∧
      Instr.wf exParams (.wireReadall 0x02 0x03 0x04 0x01 0xE3 0x6D) = false := by decide +kernel

/-- R62, R63, R66 or R68. -/
theorem test_wf_readall_crc :
    Instr.wf exParams (.wireReadall 0x02 0x03 0x04 0x09 0xE2 0xAB) = true ∧
      Instr.wf exParams (.wireReadall 0x02 0x03 0x04 0x09 0xE3 0xAB) = false := by decide +kernel

/-- R62, R63, R66 or R68. -/
theorem test_wf_wireSetv1_address :
    Instr.wf exParams (.wireSetv1 0x02 0x03 0x0A 0x11 0x04 0xD2 0x63 0x3A) = true ∧
      Instr.wf exParams (.wireSetv1 0x02 0x03 0x0A 0x77 0x04 0xD2 0x7D 0xB2) = false := by decide +kernel

/-- R62, R63, R66 or R68. -/
theorem test_wf_wireSetv2_address :
    Instr.wf exParams (.wireSetv2 0x02 0x03 0x0A 0x21 0x04 0xD2 0x6C 0x3A) = true ∧
      Instr.wf exParams (.wireSetv2 0x02 0x03 0x0A 0x77 0x04 0xD2 0x7D 0xB2) = false := by decide +kernel

/-- R62, R63, R66 or R68. -/
theorem test_wf_wireSeti1_address :
    Instr.wf exParams (.wireSeti1 0x02 0x03 0x0A 0x12 0x04 0xD2 0x63 0x7E) = true ∧
      Instr.wf exParams (.wireSeti1 0x02 0x03 0x0A 0x77 0x04 0xD2 0x7D 0xB2) = false := by decide +kernel

/-- R62, R63, R66 or R68. -/
theorem test_wf_wireSeti2_address :
    Instr.wf exParams (.wireSeti2 0x02 0x03 0x0A 0x22 0x04 0xD2 0x6C 0x7E) = true ∧
      Instr.wf exParams (.wireSeti2 0x02 0x03 0x0A 0x77 0x04 0xD2 0x7D 0xB2) = false := by decide +kernel

/-- R62, R63, R66 or R68. -/
theorem test_wf_set_prefix0 :
    Instr.wf exParams (.wireSetv1 0x02 0x03 0x0A 0x11 0x04 0xD2 0x63 0x3A) = true ∧
      Instr.wf exParams (.wireSetv1 0x01 0x03 0x0A 0x11 0x04 0xD2 0x50 0x3A) = false := by decide +kernel

/-- R62, R63, R66 or R68. -/
theorem test_wf_set_prefix1 :
    Instr.wf exParams (.wireSetv1 0x02 0x03 0x0A 0x11 0x04 0xD2 0x63 0x3A) = true ∧
      Instr.wf exParams (.wireSetv1 0x02 0x01 0x0A 0x11 0x04 0xD2 0x62 0xD8) = false := by decide +kernel

/-- R62, R63, R66 or R68. -/
theorem test_wf_set_code :
    Instr.wf exParams (.wireSetv1 0x02 0x03 0x0A 0x11 0x04 0xD2 0x63 0x3A) = true ∧
      Instr.wf exParams (.wireSetv1 0x02 0x03 0x0B 0x11 0x04 0xD2 0x5E 0xFA) = false := by decide +kernel

/-- R62, R63, R66 or R68. -/
theorem test_wf_set_crc :
    Instr.wf exParams (.wireSetv1 0x02 0x03 0x0A 0x11 0x04 0xD2 0x63 0x3A) = true ∧
      Instr.wf exParams (.wireSetv1 0x02 0x03 0x0A 0x11 0x04 0xD2 0x62 0x3A) = false := by decide +kernel

/-- R62, R63, R66 or R68. -/
theorem test_wf_wireSetout_address :
    Instr.wf exParams (.wireSetout 0x02 0x03 0x30 true 0x2A 0x5B) = true ∧
      Instr.wf exParams (.wireSetout 0x02 0x03 0x77 true 0x3E 0xEF) = false := by decide +kernel

/-- R62, R63, R66 or R68. -/
theorem test_wf_wireSetser_address :
    Instr.wf exParams (.wireSetser 0x02 0x03 0x31 true 0x2B 0xA7) = true ∧
      Instr.wf exParams (.wireSetser 0x02 0x03 0x77 true 0x3E 0xEF) = false := by decide +kernel

/-- R62, R63, R66 or R68. -/
theorem test_wf_wireSetpar_address :
    Instr.wf exParams (.wireSetpar 0x02 0x03 0x31 true 0x6B 0xA6) = true ∧
      Instr.wf exParams (.wireSetpar 0x02 0x03 0x77 true 0x7E 0xEE) = false := by decide +kernel

/-- R62, R63, R66 or R68. -/
theorem test_wf_flag_prefix0 :
    Instr.wf exParams (.wireSetout 0x02 0x03 0x30 true 0x2A 0x5B) = true ∧
      Instr.wf exParams (.wireSetout 0x01 0x03 0x30 true 0x19 0x5B) = false := by decide +kernel

/-- R62, R63, R66 or R68. -/
theorem test_wf_flag_prefix1 :
    Instr.wf exParams (.wireSetout 0x02 0x03 0x30 true 0x2A 0x5B) = true ∧
      Instr.wf exParams (.wireSetout 0x02 0x01 0x30 true 0x2B 0xB9) = false := by decide +kernel

/-- R62, R63, R66 or R68. -/
theorem test_wf_flag_crc :
    Instr.wf exParams (.wireSetout 0x02 0x03 0x30 true 0x2A 0x5B) = true ∧
      Instr.wf exParams (.wireSetout 0x02 0x03 0x30 true 0x2B 0x5B) = false := by decide +kernel

/-- R63 (V-VAL-8). -/
theorem test_wf_rsp_crc :
    Instr.wf exParams (.wireRsp r1Fields) = true ∧
      Instr.wf exParams (.wireRsp { r1Fields with crcLo := 0x28 }) = false := by decide +kernel

/-! One-step vectors of 95_test_vectors.md. -/

/-- V-CRC-6. -/
theorem test_crc_check_value :
    resultOf (exec (.crc16 [0x31, 0x32, 0x33, 0x34, 0x35, 0x36, 0x37, 0x38, 0x39] 9) block) = some (.crc 0x4B37) := by decide +kernel

/-- V-CRC-12. -/
theorem test_crc_too_long :
    (stateOf (exec (.crc16 [0x31, 0x32] 3) block)).map (fun s => (s.run, s.results)) =
      some (.faulted .crcLengthRange, [.fault .crcLengthRange]) := by decide

/-- V-ENC-1. -/
theorem test_readall :
    resultOf (exec (.encReadall) block) =
      some (.frame [0xF7, 0x02, 0x03, 0x04, 0x09, 0xE2, 0xAB, 0xFD]) := by decide +kernel

/-- V-ENC-3. -/
theorem test_setv_trailing_zero :
    resultOf (exec (.encSetv 1 ⟨12340, 3⟩) block) =
      some (.frame [0xF7, 0x02, 0x03, 0x0A, 0x11, 0x01, 0x04, 0xD2, 0x63, 0x3A, 0xFD]) := by decide +kernel

/-- V-ENC-11. -/
theorem test_setv_precision_before_range :
    resultOf (exec (.encSetv 1 ⟨6553555, 4⟩) block) = some (.encodingError .precision) := by decide

/-- V-ENC-16. -/
theorem test_seti_largest :
    resultOf (exec (.encSeti 2 ⟨65535, 3⟩) block) =
      some (.frame [0xF7, 0x02, 0x03, 0x0A, 0x22, 0x01, 0xFF, 0xFF, 0xEF, 0x53, 0xFD]) := by decide +kernel

/-- V-ENC-18. -/
theorem test_seti_range :
    resultOf (exec (.encSeti 1 ⟨65536, 3⟩) block) = some (.encodingError .range) := by decide

/-- V-ENC-21. -/
theorem test_setout_true :
    resultOf (exec (.encSetout true) block) =
      some (.frame [0xF7, 0x02, 0x03, 0x0A, 0x30, 0x01, 0x00, 0x01, 0x2A, 0x5B, 0xFD]) := by decide +kernel

/-- V-ENC-23. -/
theorem test_setser_true :
    resultOf (exec (.encSetser true) block) =
      some (.frame [0xF7, 0x02, 0x03, 0x0A, 0x31, 0x01, 0x00, 0x01, 0x2B, 0xA7, 0xFD]) := by decide +kernel

/-- V-ENC-25. -/
theorem test_setpar_true :
    resultOf (exec (.encSetpar true) block) =
      some (.frame [0xF7, 0x02, 0x03, 0x0A, 0x31, 0x01, 0x00, 0x02, 0x6B, 0xA6, 0xFD]) := by decide +kernel

/-- V-ENC-26. -/
theorem test_setpar_false :
    resultOf (exec (.encSetpar false) block) =
      some (.frame [0xF7, 0x02, 0x03, 0x0A, 0x31, 0x01, 0x00, 0x00, 0xEA, 0x67, 0xFD]) := by decide +kernel

/-- V-VAL-9. -/
theorem test_validate_residue :
    resultOf (exec (.validate val9) block) = some (.verdict true) := by decide +kernel

/-- V-VAL-4. -/
theorem test_validate_short :
    resultOf (exec (.validate [0xF7, 0x01, 0x86, 0x40, 0xFD]) block) = some (.verdict false) := by decide

/-- V-RSP-4. -/
theorem test_parse_offsets :
    resultOf (exec (.parse r4) block) = some (.snapshot r4Snapshot) := by decide

/-- V-PRS-4. -/
theorem test_parse_order :
    resultOf (exec (.parse ((r1.set 0 0x00).set 25 0x00)) block) = some (.parseError .start) := by decide

/-- V-X-15. -/
theorem test_push_overflow :
    (stateOf (exec (.xPush [0x02, 0x03, 0x04]) (capped 4 [0xF7, 0x01]))).map (fun s => (s.acc, s.run)) =
      some ([0xF7, 0x01], .faulted .accOverflow) := by decide

/-- The example of R170. -/
theorem test_push_appends :
    accOf (exec (.xPush [0x02, 0xFD]) (holding [0xF7, 0x01])) = some [0xF7, 0x01, 0x02, 0xFD] := by decide

/-- V-X-5. -/
theorem test_pop_resynchronises :
    (stateOf (exec .xPop (holding [0x01, 0xF7, 0x02, 0x03, 0xFD, 0x05]))).map (fun s => (s.acc, s.results)) =
      some ([0x05], [.candidate (some [0xF7, 0x02, 0x03, 0xFD])]) := by decide

/-- V-X-9. -/
theorem test_pop_second_start_is_data :
    resultOf (exec .xPop (holding [0xF7, 0xF7, 0xFD])) = some (.candidate (some [0xF7, 0xF7, 0xFD])) := by decide

/-- V-RX-6. -/
theorem test_rx_false_candidates :
    (stateOf (exec (.rxStep (rx6 ++ r1)) block)).map (fun s => (s.acc, s.results)) =
      some ([], [.snapshots [r1Snapshot]]) := by decide +kernel

/-- V-RX-7, its second step. -/
theorem test_rx_stale_partial :
    (stateOf (exec (.rxStep r1) (holding [0xF7, 0x02, 0x03]))).map (fun s => (s.acc, s.results)) =
      some ([], [.snapshots []]) := by decide +kernel

/-- V-RST-1. -/
theorem test_reset_drops_partial :
    accOf (exec .reset (holding [0xF7, 0x02, 0x03])) = some [] := by decide

/-- V-RST-3. -/
theorem test_reset_after_fault :
    faultOf (exec .reset broken) = some (.noStep .illegalOp) := by decide

/-- V-RSP-1 after noise (program P1, unsplit). -/
theorem test_wire_rsp_delivered :
    resultOf (exec (.wireRsp r1Fields) (holding [0x13, 0x37])) = some (.snapshots [r1Snapshot]) := by decide +kernel

/-- Program P2, step 6 (R79). -/
theorem test_wire_readall_dropped :
    (stateOf (exec (.wireReadall 0x02 0x03 0x04 0x09 0xE2 0xAB) block)).map
      (fun s => (s.acc, s.results)) = some ([], [.snapshots []]) := by decide +kernel

/-- V-RX-11 (R79). -/
theorem test_wire_setv1_dropped :
    (stateOf (exec (.wireSetv1 0x02 0x03 0x0A 0x11 0x04 0xD2 0x63 0x3A) block)).map
      (fun s => (s.acc, s.results)) = some ([], [.snapshots []]) := by decide +kernel

/-- V-ENC-4 echoed (R79). -/
theorem test_wire_setv2_dropped :
    (stateOf (exec (.wireSetv2 0x02 0x03 0x0A 0x21 0x04 0xD2 0x6C 0x3A) block)).map
      (fun s => (s.acc, s.results)) = some ([], [.snapshots []]) := by decide +kernel

/-- V-ENC-15 echoed (R79). -/
theorem test_wire_seti1_dropped :
    (stateOf (exec (.wireSeti1 0x02 0x03 0x0A 0x12 0x04 0xD2 0x63 0x7E) block)).map
      (fun s => (s.acc, s.results)) = some ([], [.snapshots []]) := by decide +kernel

/-- V-ENC-16 echoed (R79). -/
theorem test_wire_seti2_dropped :
    (stateOf (exec (.wireSeti2 0x02 0x03 0x0A 0x22 0xFF 0xFF 0xEF 0x53) block)).map
      (fun s => (s.acc, s.results)) = some ([], [.snapshots []]) := by decide +kernel

/-- V-ENC-21 echoed (R79). -/
theorem test_wire_setout_dropped :
    (stateOf (exec (.wireSetout 0x02 0x03 0x30 true 0x2A 0x5B) block)).map
      (fun s => (s.acc, s.results)) = some ([], [.snapshots []]) := by decide +kernel

/-- V-ENC-23 echoed (R79). -/
theorem test_wire_setser_dropped :
    (stateOf (exec (.wireSetser 0x02 0x03 0x31 true 0x2B 0xA7) block)).map
      (fun s => (s.acc, s.results)) = some ([], [.snapshots []]) := by decide +kernel

/-- V-ENC-25 echoed (R79). -/
theorem test_wire_setpar_dropped :
    (stateOf (exec (.wireSetpar 0x02 0x03 0x31 true 0x6B 0xA6) block)).map
      (fun s => (s.acc, s.results)) = some ([], [.snapshots []]) := by decide +kernel

/-- Program P5, its last remark. -/
theorem test_step_unassigned_code :
    (stateOf (step (presented [.request { op := 0x02 }]))).map (fun s => (s.run, s.results)) =
      some (.faulted .illegalOp, [.fault .illegalOp]) := by decide

/-- CRC16 of nothing as the first instruction after reset (V-CRC-1). -/
theorem test_first_word_after_reset :
    (stateOf (step (State.reset.withFetchWord 8 0x01))).map (fun s => s.results) = some [.crc 0xFFFF] := by decide

/-- The example of R81. -/
theorem test_line_of_setv :
    lineText (.encSetv 1 ⟨1234, 2⟩) = "ENC.SETV 1, 12.34" := by decide

/-- R141: fifteen entries, 12 is OUTPUT. -/
theorem test_snapshot_fields :
    (snapshotFields r1Snapshot).length = 15 ∧ snapshotField r1Snapshot 12 = some (.flag true) := by decide

/-- R200. -/
theorem test_result_codes :
    resultCode (.encodingError .range) = 0x11 ∧ resultCode (.fault .accOverflow) = 0xF3 := by decide

/-! Witnesses: for every statement with hypotheses, concrete values that meet them all together. -/

/-- The hypotheses hold together. -/
theorem witness_ResetEmptiesTheAccumulator :
    (holding [0xF7]).run = .running := by decide

/-- The hypotheses hold together. -/
theorem witness_FaultedBlockHasNoStep :
    broken.run = .faulted .illegalOp := by decide

/-- The hypotheses hold together. -/
theorem witness_StepRunsTheDecodedInstruction :
    (presented [encode .xPop]).pending = encode .xPop :: [] ∧ read (encode .xPop) = some .xPop := by decide

/-- The hypotheses hold together. -/
theorem witness_IdleBlockHoldsItsState :
    block.run = .running ∧ block.pending = [] := by decide

/-- Codes beside the assigned ones. -/
theorem witness_UnassignedCodeFaults :
    block.run = .running ∧ ∀ c ∈ ([0x00, 0x02, 0x16, 0x22, 0x33, 0x3E, 0x40, 0xFF] : List Byte),
      c ∉ [0x01, 0x10, 0x11, 0x12, 0x13, 0x14, 0x15, 0x20, 0x21, 0x30, 0x31, 0x32, 0x3F] := by decide

/-- The hypotheses hold together. -/
theorem witness_UnknownFrameIsReceivedAsAChunk :
    rejected (.frame [0xF7, 0x01, 0xFD]) = some (.frameLength 3) ∧
      (presented [.frame [0xF7, 0x01, 0xFD]]).pending = [.frame [0xF7, 0x01, 0xFD]] := by decide

/-- The hypotheses hold together. -/
theorem witness_FetchWordRunsTheTableWord :
    State.reset.params = Config.params ∧ decodeTableWord 8 0x31 = some .xPop := ⟨rfl, by decide⟩

/-- All bytes, and none. -/
theorem witness_Crc16FoldsTheFirstBytes :
    block.run = .running ∧ 2 ≤ ([0x31, 0x32] : Bytes).length ∧ 0 ≤ ([] : Bytes).length := by decide

/-- One byte too many. -/
theorem witness_Crc16BeyondTheBytesFaults :
    block.run = .running ∧ ([0x31, 0x32] : Bytes).length < 3 := by decide

/-- V-CRC-9. -/
theorem witness_CrcIsIncrementalWithResidueZero :
    (0xABE2 : U16) = crc16 [0xF7, 0x02, 0x03, 0x04, 0x09] 5 := by decide +kernel

/-- Both ends of a frame, and a CRC byte. -/
theorem witness_SingleByteChangeIsDetected :
    block.run = .running ∧ validateFrame r1 = true ∧ 0 < r1.length ∧ 25 < r1.length ∧
      0x00 ≠ byteAt r1 0 ∧ 0x00 ≠ byteAt r1 25 ∧ 0x28 ≠ byteAt r1 23 := by decide +kernel

/-- A running block; the same meets `EncoderCopiesEveryByteUnescaped`, `SetOutputEmitsItsFrame`,
`SetSerialEmitsItsFrame`, `SetParallelEmitsItsFrame`, `SerialAndParallelCommandsCompared`, `ValidateReportsTheFourTests`
and `ResponseValuesDecodeExactly`. -/
theorem witness_ReadallEmitsItsEightBytes :
    block.run = .running := by decide

/-- Each clause at its boundaries: raw 0 and 65535, one digit too many, 65536 and -1. -/
theorem witness_SetVoltageScalesExactly :
    block.run = .running ∧ (2 = 1 ∨ 2 = 2) ∧
      (0 : Int) * 100 = ((0 : U16).toNat : Int) * 10 ^ 0 ∧ (65535 : Int) * 100 = ((65535 : U16).toNat : Int) * 10 ^ 2 ∧
      ¬((10 : Int) ^ 3 ∣ 12345 * 100) ∧
      ((10 : Int) ^ 2 ∣ 65536 * 100 ∧ 65535 * (10 : Int) ^ 2 < 65536 * 100) ∧
      ((10 : Int) ^ 2 ∣ -1 * 100 ∧ -1 * 100 < (0 : Int)) := by decide

/-- Each clause at its boundaries: raw 0 and 65535, one digit too many, 65536 and -1. -/
theorem witness_SetCurrentScalesExactly :
    block.run = .running ∧ (2 = 1 ∨ 2 = 2) ∧
      (0 : Int) * 1000 = ((0 : U16).toNat : Int) * 10 ^ 0 ∧ (65535 : Int) * 1000 = ((65535 : U16).toNat : Int) * 10 ^ 3 ∧
      ¬((10 : Int) ^ 4 ∣ 12345 * 1000) ∧
      ((10 : Int) ^ 3 ∣ 65536 * 1000 ∧ 65535 * (10 : Int) ^ 3 < 65536 * 1000) ∧
      ((10 : Int) ^ 3 ∣ -1 * 1000 ∧ -1 * 1000 < (0 : Int)) := by decide

/-- Channels 0 and 3. -/
theorem witness_BadChannelFaults :
    block.run = .running ∧ (0 ≠ 1 ∧ 0 ≠ 2) ∧ (3 ≠ 1 ∧ 3 ≠ 2) := by decide

/-- V-ENC-2 and V-ENC-3. -/
theorem witness_ToRawIsExactScaling :
    decimalValue ⟨1234, 2⟩ = decimalValue ⟨12340, 3⟩ := by norm_num [decimalValue]

/-- V-ENC-2, V-ENC-4, V-ENC-15 and V-ENC-16. -/
theorem witness_AddressTellsTheValueCommands :
    exParams.distinct = true ∧ 1 ≠ 2 ∧
      resultOf (exec (.encSetv 1 ⟨1234, 2⟩) block) = some (.frame [0xF7, 0x02, 0x03, 0x0A, 0x11, 0x01, 0x04, 0xD2, 0x63, 0x3A, 0xFD]) ∧
      resultOf (exec (.encSetv 2 ⟨1234, 2⟩) block) = some (.frame [0xF7, 0x02, 0x03, 0x0A, 0x21, 0x01, 0x04, 0xD2, 0x6C, 0x3A, 0xFD]) ∧
      resultOf (exec (.encSeti 1 ⟨1234, 3⟩) block) = some (.frame [0xF7, 0x02, 0x03, 0x0A, 0x12, 0x01, 0x04, 0xD2, 0x63, 0x7E, 0xFD]) ∧
      resultOf (exec (.encSeti 2 ⟨65535, 3⟩) block) = some (.frame [0xF7, 0x02, 0x03, 0x0A, 0x22, 0x01, 0xFF, 0xFF, 0xEF, 0x53, 0xFD]) := by decide +kernel

/-- V-ENC-1; the same meets `EmittedFramesHaveTheirWireFormat`. -/
theorem witness_EmittedFramesValidate :
    (stateOf (exec .encReadall block)).map (fun t => t.results) =
      some (block.results ++ [.frame [0xF7, 0x02, 0x03, 0x04, 0x09, 0xE2, 0xAB, 0xFD]]) := by decide +kernel

/-- V-ENC-8, and an operation after it (V-ENC-28). -/
theorem witness_EncodingErrorChangesNothing :
    (stateOf (exec (.encSetv 1 ⟨12345, 3⟩) block)).map (fun t => t.results) =
      some (block.results ++ [.encodingError .precision]) ∧ (stateOf (exec .xPop block)).isSome = true := by decide

/-- Each clause at its boundary (V-PRS-1, 2, 3, V-RSP-1, V-PRS-7). -/
theorem witness_ParseDecodesOrReportsInOrder :
    block.run = .running ∧ (r1.take 25).length < 26 ∧
      (26 ≤ r1.length ∧ (r1.set 0 0x00).head? ≠ some 0xF7) ∧
      (26 ≤ r1.length ∧ (r1.set 25 0x00).head? = some 0xF7 ∧ (r1.set 25 0x00).getLast? ≠ some 0xFD) ∧
      (26 ≤ r1.length ∧ r1.head? = some 0xF7 ∧ r1.getLast? = some 0xFD) ∧
      (26 ≤ val9.length ∧ val9.head? = some 0xF7 ∧ val9.getLast? = some 0xFD) := by decide

/-- V-RSP-1 with another CRC byte (V-PRS-6) and another header byte. -/
theorem witness_ParseIgnoresWhatItDoesNotRead :
    r1.length = ((r1.set 23 0x28).set 1 0x00).length ∧ r1[0]? = ((r1.set 23 0x28).set 1 0x00)[0]? ∧
      r1.getLast? = ((r1.set 23 0x28).set 1 0x00).getLast? ∧
      (∀ b ∈ [0, 1, 2, 3, 5], (byteAt r1 5).getLsbD b = (byteAt ((r1.set 23 0x28).set 1 0x00) 5).getLsbD b) ∧
      (∀ b ∈ [0, 1], (byteAt r1 6).getLsbD b = (byteAt ((r1.set 23 0x28).set 1 0x00) 6).getLsbD b) ∧
      (∀ k < 23, 7 ≤ k → r1[k]? = ((r1.set 23 0x28).set 1 0x00)[k]?) := by decide

/-- V-RSP-1 and V-VAL-9. -/
theorem witness_ParseIsTotalOnValidFrames :
    block.run = .running ∧ (validateFrame r1 = true ∧ 26 ≤ r1.length) ∧ (validateFrame val9 = true ∧ 26 ≤ val9.length) := by decide +kernel

/-- V-RSP-1. -/
theorem witness_FlagsComeFromTheStatusBytes :
    (stateOf (exec (.parse r1) block)).map (fun t => t.results) = some (block.results ++ [.snapshot r1Snapshot]) := by decide

/-- A short operand, and a candidate that passes both tests. -/
theorem witness_ParseErrorOnlyFromParse :
    (stateOf (exec (.parse []) block)).map (fun t => t.results) = some (block.results ++ [.parseError .short]) ∧
      validateFrame r1 = true ∧ isReadallShape r1 = true := by decide +kernel

/-- A chunk that just fits, and no capacity; the same meets `RxStepDeliversTheDelimitedStream`. -/
theorem witness_PushAppendsTheChunk :
    (capped 4 [0xF7]).run = .running ∧ (capped 4 [0xF7]).params.accCap = some 4 ∧
      (capped 4 [0xF7]).acc.length + ([0x01, 0x02, 0x03] : Bytes).length ≤ 4 ∧ block.params.accCap = none := by decide

/-- One byte too many, for a push and for a frame. -/
theorem witness_OverflowFaultsBeforeAnyChange :
    (capped 4 [0xF7]).run = .running ∧ (capped 4 [0xF7]).params.accCap = some 4 ∧
      4 < (capped 4 [0xF7]).acc.length + ([0x01, 0x02, 0x03, 0x04] : Bytes).length ∧
      (Instr.frameBytes (.wireReadall 0x02 0x03 0x04 0x09 0xE2 0xAB)).isSome = true ∧ 4 < (capped 4 [0xF7]).acc.length + 8 := by decide

/-- Each of the three forms, the shortest candidate among them. -/
theorem witness_PopFollowsItsSixSteps :
    block.run = .running ∧ (0xF7 : Byte) ∉ ([0x01, 0xFD] : Bytes) ∧
      ((0xF7 : Byte) ∉ ([0x01] : Bytes) ∧ (0xFD : Byte) ∉ ([0x02] : Bytes) ∧ ([0x01, 0xF7, 0x02] : Bytes) = [0x01] ++ 0xF7 :: [0x02]) ∧
      ([0x01, 0xF7, 0x02, 0xFD, 0x05] : Bytes) = [0x01] ++ 0xF7 :: ([0x02] ++ 0xFD :: [0x05]) ∧
      ([0xF7, 0xFD] : Bytes) = [] ++ 0xF7 :: ([] ++ 0xFD :: []) := by decide

/-- V-X-14. -/
theorem witness_PopReturningNoneRests :
    (stateOf (exec .xPop (holding [0xFD, 0x11, 0xF7, 0x22]))).map (fun t => (t.acc, t.results)) =
      some ([0xF7, 0x22], [.candidate none]) := by decide

/-- V-X-13. -/
theorem witness_CandidatesHaveTheirShape :
    (stateOf (exec .xPop (holding [0xF7, 0xFD]))).map (fun t => t.results) = some [.candidate (some [0xF7, 0xFD])] := by decide

/-- A frame split over two pushes. -/
theorem witness_StreamLaw :
    (presented [encode (.xPush [0x01, 0xF7]), encode .xPop, encode (.xPush [0xFD]), encode .xPop, encode .xPop]).pending =
      [some [0x01, 0xF7], none, some [0xFD], none, none].map
        (fun o => match o with | none => encode .xPop | some c => encode (.xPush c)) ++ [] ∧
      block.acc = [] ∧ block.params.accCap = none ∧ block.run = .running := by decide

/-- One candidate, then `NONE`. -/
theorem witness_RxStepIsPushThenPops :
    ((stateOf (runFor 3 (presented [encode (.xPush [0xF7, 0xFD]), encode .xPop, encode .xPop]))).bind
      (fun t => t.results.getLast?)) = some (.candidate none) := by decide

/-- Two chunks, one of them empty. -/
theorem witness_DeliveredStreamIgnoresChunking :
    (presented [encode (.rxStep [0xF7]), encode (.rxStep [])]).pending =
      [[0xF7], []].map (fun c => encode (.rxStep c)) ++ [] ∧ block.acc = [] ∧ block.params.accCap = none ∧
      block.run = .running := by decide

/-- V-RSP-1 after one byte of noise. -/
theorem witness_CleanResponseIsDelivered :
    (holding [0x13]).run = .running ∧ (holding [0x13]).params.accCap = none ∧ 0xF7 ∉ (holding [0x13]).acc ∧
      (validateFrame (rspBytes r1Fields) = true ∧ (rspBytes r1Fields).length = 26 ∧
        endMarker ∉ (rspBytes r1Fields).dropLast) := by decide +kernel

/-- V-RX-4. -/
theorem witness_ResponseWithEarlyEndMarkerIsLost :
    block.run = .running ∧ block.acc = [] ∧ block.params.accCap = none ∧ validateFrame rx4 = true ∧
      rx4.length = 26 ∧ 0xFD ∈ rx4.dropLast := by decide +kernel

/-- V-RX-7. -/
theorem witness_StalePartialFrameLosesOneResponse :
    (holding [0xF7, 0x02]).acc.head? = some 0xF7 ∧ 0xFD ∉ (holding [0xF7, 0x02]).acc ∧
      (holding [0xF7, 0x02]).run = .running ∧ (holding [0xF7, 0x02]).params.accCap = none ∧
      (validateFrame r1 = true ∧ r1.length = 26 ∧ endMarker ∉ r1.dropLast) := by decide +kernel

/-- V-RSP-1. -/
theorem witness_WireFramesAreReceived :
    (Instr.frameBytes (.wireRsp r1Fields)) = some r1 ∧ block.run = .running ∧ block.params.accCap = none := by decide

/-- Program P2, step 6. -/
theorem witness_EchoedCommandsAreDropped :
    Instr.frameBytes (.wireReadall 0x02 0x03 0x04 0x09 0xE2 0xAB) = some [0xF7, 0x02, 0x03, 0x04, 0x09, 0xE2, 0xAB, 0xFD] ∧
      mnemonicOf (.wireReadall 0x02 0x03 0x04 0x09 0xE2 0xAB) ≠ "WIRE.RSP" ∧ block.run = .running ∧ block.acc = [] ∧
      block.params.accCap = none := by decide

/-- One that returns a value and one that faults; the same meets the first clause of
`SideEffectsAreTheReceiveSidesAlone`. -/
theorem witness_TransmitAndPureOperationsKeepTheState :
    sideOf .encReadall = .transmit ∧ (stateOf (exec .encReadall block)).isSome = true ∧
      sideOf (.crc16 [] 1) = .pure ∧ (stateOf (exec (.crc16 [] 1) block)).map (fun t => t.run) =
        some (.faulted .crcLengthRange) := by decide

/-- A pop, a reset, and a push that overflows. -/
theorem witness_ReceiveOperationsWriteOnlyTheAccumulator :
    sideOf .xPop = .receive ∧ (stateOf (exec .xPop block)).isSome = true ∧ sideOf .reset = .control ∧
      (stateOf (exec .reset block)).isSome = true ∧ (stateOf (exec (.xPush [0x01]) (capped 0 []))).map (fun t => t.run) =
        some (.faulted .accOverflow) := by decide

/-- An idle step and a step that performs a request. -/
theorem witness_StepKeepsParametersAndHistory :
    (stateOf (step block)).isSome = true ∧ (stateOf (step (presented [encode .xPop]))).isSome = true := by decide

/-- The example configuration. -/
theorem witness_InvariantHoldsAtReset :
    exParams.distinct = true := by decide

/-- The hypotheses hold together. -/
theorem witness_RequestsRoundTrip :
    Instr.frameBytes .xPop = none := by decide

/-- A frame of each clause. -/
theorem witness_WireFramesRoundTrip :
    CommandsApart exParams ∧ Instr.wf exParams (.wireReadall 0x02 0x03 0x04 0x09 0xE2 0xAB) = true ∧
      Instr.wf exParams (.wireSetpar 0x02 0x03 0x31 false 0xEA 0x67) = true := by unfold CommandsApart; decide +kernel

/-- The hypotheses hold together. -/
theorem witness_DecodedFramesEncodeToTheirBytes :
    read (.frame r1) = some (.wireRsp r1Fields) := by decide

/-- The result of X.PUSH. -/
theorem witness_OutcomeCodes :
    (∀ e, Result.done ≠ .encodingError e) ∧ (∀ e, Result.done ≠ .parseError e) ∧ (∀ f, Result.done ≠ .fault f) := by simp

/-- The invariant holds of the example block, and a step from it answers a next state. -/
theorem witness_EveryStepKeepsTheInvariant :
    Inv (presented [encode .encReadall]) ∧ (stateOf (step (presented [encode .encReadall]))).isSome = true := by
  refine ⟨⟨?_, by decide, ?_, ?_⟩, by decide⟩
  · intro n h; cases h
  · intro r h; cases h
  · intro r h; cases h

end Sys2Proof.Machine.Tests
end

section
/-! 20_memory.md: which operations have side effects (R49). Every transmit and pure operation ends with one result
that its operands and the parameters fix; the receive side and RESET write `ACC`. -/

namespace Sys2Proof.Machine

/-- How an operation without side effect ends: a model fault stops the block (R204), any other result is returned
(R12). -/
def conclude (r : Result) (s : State) : State :=
  match r with
  | .fault f => enterFault f s
  | r => record r s

@[simp] theorem conclude_params (r : Result) (s : State) : (conclude r s).params = s.params := by cases r <;> rfl
@[simp] theorem conclude_acc (r : Result) (s : State) : (conclude r s).acc = s.acc := by cases r <;> rfl
@[simp] theorem conclude_pending (r : Result) (s : State) : (conclude r s).pending = s.pending := by cases r <;> rfl
@[simp] theorem conclude_results (r : Result) (s : State) : (conclude r s).results = s.results ++ [r] := by
  cases r <;> rfl

/-- On every block with parameters `P`, whatever else it holds, `i` concludes with the one result `r`. -/
def AlwaysAnswers (P : Params) (i : Instr) (r : Result) : Prop :=
  ∀ s : State, s.params = P → exec i s = whenRunning s (conclude r s)

theorem crc16_alwaysAnswers (P : Params) (b : Bytes) (n : Nat) : ∃ r, AlwaysAnswers P (.crc16 b n) r := by
  by_cases hn : n ≤ b.length
  · exact ⟨.crc (crc16 b n), fun s _ => by simp [exec, execCrc16, hn, conclude]⟩
  · exact ⟨.fault .crcLengthRange, fun s _ => by simp [exec, execCrc16, hn, conclude]⟩

/-- The channel and the decimal alone choose between fault, error and frame. -/
theorem valueCommand_eq_conclude (P : Params) (ch : Nat) (v : Decimal) (scale : Nat) (a1 a2 : Byte) :
    ∃ r, ∀ s : State, s.params = P → valueCommand ch v scale a1 a2 s = conclude r s := by
  by_cases hc : ch = 1 ∨ ch = 2
  · cases hr : toRaw v scale with
    | error e => exact ⟨.encodingError e, fun s _ => by simp [valueCommand, hc, hr, conclude]⟩
    | ok raw =>
      exact ⟨.frame (setFrame P P.fcSet (if ch = 1 then a1 else a2) (hi8 raw) (lo8 raw)),
        fun s hs => by simp [valueCommand, hc, hr, conclude, hs]⟩
  · exact ⟨.fault .illegalOperand, fun s _ => by simp [valueCommand, hc, conclude]⟩

theorem encSetv_alwaysAnswers (P : Params) (ch : Nat) (v : Decimal) : ∃ r, AlwaysAnswers P (.encSetv ch v) r := by
  obtain ⟨r, hr⟩ := valueCommand_eq_conclude P ch v scaleV P.addrV1 P.addrV2
  exact ⟨r, fun s hs => by simp only [exec, execEncSetv, hs, hr s hs]⟩

theorem encSeti_alwaysAnswers (P : Params) (ch : Nat) (v : Decimal) : ∃ r, AlwaysAnswers P (.encSeti ch v) r := by
  obtain ⟨r, hr⟩ := valueCommand_eq_conclude P ch v scaleI P.addrI1 P.addrI2
  exact ⟨r, fun s hs => by simp only [exec, execEncSeti, hs, hr s hs]⟩

theorem parse_alwaysAnswers (P : Params) (f : Bytes) : ∃ r, AlwaysAnswers P (.parse f) r := by
  cases hf : parseFrame f with
  | error e => exact ⟨.parseError e, fun s _ => by simp [exec, execParse, hf, conclude]⟩
  | ok snap => exact ⟨.snapshot snap, fun s _ => by simp [exec, execParse, hf, conclude]⟩

/-- R49 for every operation of the transmit side and every pure one: the result is fixed by operands and parameters. -/
theorem exists_alwaysAnswers (P : Params) {i : Instr} (hi : sideOf i = .transmit ∨ sideOf i = .pure) :
    ∃ r, AlwaysAnswers P i r := by
  cases i with
  | crc16 b n => exact crc16_alwaysAnswers P b n
  | encReadall => exact ⟨.frame (readallFrame P), by rintro s rfl; rfl⟩
  | encSetv ch v => exact encSetv_alwaysAnswers P ch v
  | encSeti ch v => exact encSeti_alwaysAnswers P ch v
  | encSetout b => exact ⟨.frame (setFrame P fcFlag P.addrOut 0x00 (flagByte b)), by rintro s rfl; rfl⟩
  | encSetser b => exact ⟨.frame (setFrame P fcFlag P.addrSerPar 0x00 (flagByte b)), by rintro s rfl; rfl⟩
  | encSetpar b => exact ⟨.frame (setFrame P fcFlag P.addrSerPar 0x00 (parallelByte b)), by rintro s rfl; rfl⟩
  | validate f => exact ⟨.verdict (validateFrame f), fun _ _ => rfl⟩
  | parse f => exact parse_alwaysAnswers P f
  | _ => simp [sideOf] at hi

/-- The first clause of R49: `ACC` stays, and the result is that of every running block with the same parameters. -/
theorem result_of_transmit_or_pure {i : Instr} {s t : State} (hi : sideOf i = .transmit ∨ sideOf i = .pure)
    (ht : exec i s = .next t) :
    t.acc = s.acc ∧ ∃ r : Result, t.results = s.results ++ [r] ∧
      ∀ s' : State, s'.params = s.params → s'.run = .running →
        ∃ t' : State, exec i s' = .next t' ∧ t'.results = s'.results ++ [r] ∧ t'.acc = s'.acc := by
  obtain ⟨r, hr⟩ := exists_alwaysAnswers s.params hi
  rw [hr s rfl] at ht
  obtain ⟨-, rfl⟩ := whenRunning_next ht
  refine ⟨conclude_acc r s, r, conclude_results r s, fun s' hp hrun => ⟨conclude r s', ?_, by simp, by simp⟩⟩
  rw [hr s' hp, whenRunning_of_running hrun]

/-- X.POP of a running block, by what it finds in the accumulator. -/
theorem exec_xPop_of_popAcc {s : State} {c : Option Bytes} {rest : Bytes} (hrun : s.run = .running)
    (hp : popAcc s.acc = (c, rest)) : exec .xPop s = .next (record (.candidate c) (withAcc rest s)) := by
  simp [exec, execXPop, hrun, hp]

/-- X.POP that answers NONE still discards a byte of noise. -/
theorem xPop_none_changes_acc :
    ∃ s t : State, exec .xPop s = .next t ∧ t.results = s.results ++ [.candidate none] ∧ t.acc ≠ s.acc :=
  ⟨withAcc [0x00] State.reset, _, exec_xPop_of_popAcc rfl (popAcc_no_start (by decide)), rfl, by simp⟩

/-- One empty frame in `ACC`: the first X.POP takes it, the second finds nothing. -/
theorem xPop_twice_differs :
    ∃ (s t u : State) (c : Bytes), exec .xPop s = .next t ∧ exec .xPop t = .next u ∧
      t.results = s.results ++ [.candidate (some c)] ∧ u.results = t.results ++ [.candidate none] :=
  ⟨withAcc [startMarker, endMarker] State.reset, _, _, [startMarker, endMarker],
    exec_xPop_of_popAcc rfl (popAcc_frame (g := []) (b := []) (r := []) (by simp) (by simp)),
    exec_xPop_of_popAcc rfl (popAcc_no_start (by simp)), rfl, rfl⟩

theorem xPush_changes_acc : ∃ (s t : State) (c : Bytes), exec (.xPush c) s = .next t ∧ t.acc ≠ s.acc :=
  ⟨State.reset, record .done (withAcc [0x00] State.reset), [0x00], rfl, by simp [State.reset]⟩

/-- A start marker that no end marker follows stays in `ACC`. -/
theorem rxStep_changes_acc : ∃ (s t : State) (c : Bytes), exec (.rxStep c) s = .next t ∧ t.acc ≠ s.acc :=
  ⟨State.reset, record (.snapshots []) (withAcc [startMarker] State.reset), [startMarker], rfl,
    by simp [State.reset]⟩

theorem reset_changes_acc : ∃ s t : State, exec .reset s = .next t ∧ t.acc ≠ s.acc :=
  ⟨withAcc [0x00] State.reset, record .done (withAcc [] (withAcc [0x00] State.reset)), rfl, by simp⟩

/-- Settles O52: the result of a transmit or pure operation is fixed before the state is known; the receive side and
RESET are shown at work on the block after reset. -/
theorem sideEffectsAreTheReceiveSidesAlone : Obligations.SideEffectsAreTheReceiveSidesAlone :=
  ⟨fun _ _ _ => result_of_transmit_or_pure, xPop_none_changes_acc, xPop_twice_differs, xPush_changes_acc,
    rxStep_changes_acc, reset_changes_acc⟩

end Sys2Proof.Machine
end

section
/-! 30_encoding.md: what the fields and flags of a response mean (R70, R73, R74), as PARSE reads them. -/

namespace Sys2Proof.Machine

/-- PARSE accepts exactly the sequences that pass its three tests (R143), and reads the fields at their offsets (R141). -/
theorem parseFrame_eq_ok_iff {f : Bytes} {x : Snapshot} :
    parseFrame f = .ok x ↔ rspLen ≤ f.length ∧ byteAt f 0 = startMarker ∧
      byteAt f (f.length - 1) = endMarker ∧ snapshotOf f = x := by
  by_cases hlen : f.length < rspLen
  · simp [parseFrame, hlen]
  by_cases hstart : byteAt f 0 = startMarker
  · by_cases hend : byteAt f (f.length - 1) = endMarker
    · simp [parseFrame, hlen, hstart, hend, Nat.le_of_not_lt hlen]
    · simp [parseFrame, hlen, hstart, hend]
  · simp [parseFrame, hlen, hstart]

/-- A running block returns the snapshot of a sequence PARSE accepts. -/
theorem exec_parse_of_ok {s : State} {f : Bytes} {x : Snapshot} (hrun : s.run = .running)
    (hx : parseFrame f = .ok x) : exec (.parse f) s = .next (record (.snapshot x) s) := by
  simp [exec, execParse, hrun, hx]

/-- A snapshot comes from PARSE of a sequence it accepts. -/
theorem parseFrame_ok_of_exec_parse {s t : State} {f : Bytes} {x : Snapshot} (h : exec (.parse f) s = .next t)
    (ht : t.results = s.results ++ [.snapshot x]) : parseFrame f = .ok x := by
  obtain ⟨-, rfl⟩ := whenRunning_next h
  cases hp : parseFrame f with
  | ok y => simpa [hp] using ht
  | error e => simp [hp] at ht

/-- A big-endian field written out and read back, with the digits its offset gives it (R73). -/
theorem snapshotOf_rspBytes (r : RspFields) : snapshotOf (rspBytes r) =
    { ch1MV := ⟨r.ch1MV, scaleV⟩, ch1MI := ⟨r.ch1MI, scaleI⟩, ch1SV := ⟨r.ch1SV, scaleV⟩, ch1SI := ⟨r.ch1SI, scaleI⟩
      ch1CV := constantVoltage r.st1, ch1CC := constantCurrent r.st1
      ch2MV := ⟨r.ch2MV, scaleV⟩, ch2MI := ⟨r.ch2MI, scaleI⟩, ch2SV := ⟨r.ch2SV, scaleV⟩, ch2SI := ⟨r.ch2SI, scaleI⟩
      ch2CV := constantVoltage r.st2, ch2CC := constantCurrent r.st2
      output := outputFlag r.st2, serial := serialFlag r.st2, parallel := parallelFlag r.st2 } := by
  simp [snapshotOf, voltageAt, currentAt, u16At, byteAt, rspBytes]

/-- The bytes of a response pass the three tests of PARSE, whatever the fields hold. -/
theorem parseFrame_rspBytes (r : RspFields) : parseFrame (rspBytes r) = .ok (snapshotOf (rspBytes r)) :=
  parseFrame_eq_ok_iff.mpr ⟨Nat.le_refl 26, rfl, rfl, rfl⟩

/-- A voltage has two decimals. -/
theorem fixedValue_scaleV (raw : U16) : fixedValue ⟨raw, scaleV⟩ = (raw.toNat : ℚ) / 100 := by
  norm_num [fixedValue, scaleV]

/-- A current has three decimals. -/
theorem fixedValue_scaleI (raw : U16) : fixedValue ⟨raw, scaleI⟩ = (raw.toNat : ℚ) / 1000 := by
  norm_num [fixedValue, scaleI]

/-- Settles O34: PARSE accepts every `rspBytes r`, and each field is its two bytes put together again. -/
theorem responseValuesDecodeExactly : Obligations.ResponseValuesDecodeExactly := by
  refine ⟨fun s r hrun => ⟨snapshotOf (rspBytes r), exec_parse_of_ok hrun (parseFrame_rspBytes r), ?_⟩,
    fun _ => rfl, fun raw => ⟨fixedValue_scaleV raw, fixedValue_scaleI raw⟩⟩
  rw [snapshotOf_rspBytes]
  exact ⟨rfl, rfl, rfl, rfl, rfl, rfl, rfl, rfl, rfl, rfl, rfl, rfl, rfl, rfl, rfl⟩

/-- Settles O33: a snapshot PARSE returns is `snapshotOf` its operand, whose flags are those bits. -/
theorem flagsComeFromTheStatusBytes : Obligations.FlagsComeFromTheStatusBytes := by
  intro s f x h
  obtain ⟨-, -, -, rfl⟩ := parseFrame_eq_ok_iff.mp (parseFrame_ok_of_exec_parse h rfl)
  exact ⟨rfl, rfl, rfl, rfl, rfl, rfl, rfl⟩

end Sys2Proof.Machine
end

section
/-! The per-byte step of the CRC (R100): the machine's counted rounds are iterates of one round. -/

namespace Sys2Proof.Machine

/-- R100's "if the low bit is set", with the bit read by index. -/
theorem crcRound_eq_ite_getElem (a : U16) :
    crcRound a = if a[0] = true then (a >>> 1) ^^^ 0xA001#16 else a >>> 1 := by
  rw [crcRound, crcPoly, BitVec.getLsbD_eq_getElem (by decide)]
  rfl

theorem crcRounds_eq_iterate (k : Nat) (a : U16) : crcRounds k a = crcRound^[k] a := by
  induction k generalizing a with
  | zero => rfl
  | succ k ih => rw [crcRounds, ih, Function.iterate_succ_apply]

theorem crcUpdate_eq_iterate (acc : U16) (b : Byte) : crcUpdate acc b = crcRound^[8] (acc ^^^ zext16 b) :=
  crcRounds_eq_iterate 8 _

/-- Settles O9: `crcUpdate` iterates `crcRound` eight times, and `crcRound` is R100's round. -/
theorem crcUpdateIsEightRounds : Obligations.CrcUpdateIsEightRounds := by
  refine ⟨fun acc b => ?_, by decide⟩
  rw [← funext crcRound_eq_ite_getElem]
  exact crcUpdate_eq_iterate acc b

end Sys2Proof.Machine
end

section
/-! 41_encode.md: the frame builder (R110) and the three flag commands (R115 to R117), which differ in their address
and in the byte that stands for the flag. -/

namespace Sys2Proof.Machine

/-- Settles O14: the two frames of the encoder are `mkframe` of the five and the eight bytes their definitions list. -/
theorem mkframeAppendsCrcAndEndMarker : Obligations.MkframeAppendsCrcAndEndMarker :=
  ⟨fun _ => rfl,
    fun P => ⟨[startMarker, P.prefix0, P.prefix1, P.raBody0, P.raBody1], rfl, rfl, rfl⟩,
    fun P fc addr valHi valLo =>
      ⟨[startMarker, P.prefix0, P.prefix1, fc, addr, lenField, valHi, valLo], rfl, rfl, rfl⟩⟩

/-- A flag command of a running block returns the frame with its address and its value byte, and changes nothing
else. -/
theorem whenRunning_flagCommand (addr valLo : Byte) {s : State} (hrun : s.run = .running) :
    whenRunning s (flagCommand addr valLo s) = .next { s with results := s.results ++ [.frame (mkframe
      [0xF7, s.params.prefix0, s.params.prefix1, 0x0A, addr, 0x01, 0x00, valLo])] } :=
  whenRunning_of_running hrun

/-- For false the parallel command has the value byte of the output and serial commands (R72). -/
theorem parallelByte_false : parallelByte false = flagByte false := rfl

/-- For false the serial and the parallel command are one and the same (R120). -/
theorem exec_encSetser_false (s : State) : exec (.encSetser false) s = exec (.encSetpar false) s := by
  rw [exec, exec, execEncSetser, execEncSetpar, parallelByte_false]

/-- Settles O21: the flag command at `P_ADDR_OUT` with the value byte of `flagByte`. -/
theorem setOutputEmitsItsFrame : Obligations.SetOutputEmitsItsFrame :=
  ⟨fun _ _ => rfl, fun s b hrun => whenRunning_flagCommand s.params.addrOut (flagByte b) hrun⟩

/-- Settles O22: the flag command at the shared address with the value byte of `flagByte`. -/
theorem setSerialEmitsItsFrame : Obligations.SetSerialEmitsItsFrame :=
  ⟨fun _ _ => rfl, fun s b hrun => whenRunning_flagCommand s.params.addrSerPar (flagByte b) hrun,
    exec_encSetser_false⟩

/-- Settles O23: the flag command at the shared address with the value byte of `parallelByte`. -/
theorem setParallelEmitsItsFrame : Obligations.SetParallelEmitsItsFrame :=
  ⟨fun _ _ => rfl, fun s b hrun => whenRunning_flagCommand s.params.addrSerPar (parallelByte b) hrun⟩

end Sys2Proof.Machine
end

section
/-! 42_decode.md: VALIDATE (R140). Its four tests, as conditions on the operand's ends and bytes. -/

namespace Sys2Proof.Machine

/-- The first byte by offset. -/
theorem byteAt_zero_eq_iff_head? {f : Bytes} (b : Byte) (hf : f ≠ []) : byteAt f 0 = b ↔ f.head? = some b := by
  cases f with
  | nil => exact absurd rfl hf
  | cons x xs => simp [byteAt]

/-- The last byte by offset. -/
theorem byteAt_last_eq_iff_getLast? {f : Bytes} (b : Byte) (hf : f ≠ []) :
    byteAt f (f.length - 1) = b ↔ f.getLast? = some b := by
  have hlast : f.length - 1 < f.length := Nat.sub_one_lt (List.length_pos_iff.mpr hf).ne'
  simp [byteAt, List.getLast?_eq_getElem?, hlast]

/-- VALIDATE accepts exactly the sequences that pass its four tests. -/
theorem validateFrame_iff {f : Bytes} :
    validateFrame f = true ↔ minValidLen ≤ f.length ∧ byteAt f 0 = startMarker ∧
      byteAt f (f.length - 1) = endMarker ∧ embeddedCrc f = crc16 f (f.length - 3) := by
  by_cases hlen : f.length < minValidLen
  · simp [validateFrame, hlen]
  by_cases hstart : byteAt f 0 = startMarker
  · by_cases hend : byteAt f (f.length - 1) = endMarker
    · simp [validateFrame, hlen, hstart, hend, Nat.le_of_not_lt hlen]
    · simp [validateFrame, hlen, hstart, hend]
  · simp [validateFrame, hlen, hstart]

/-- The same with the markers at the two ends of the list. -/
theorem validateFrame_iff_ends {f : Bytes} :
    validateFrame f = true ↔ minValidLen ≤ f.length ∧ f.head? = some startMarker ∧
      f.getLast? = some endMarker ∧ embeddedCrc f = crc16 f (f.length - 3) := by
  rw [validateFrame_iff]
  refine and_congr_right fun hlen => ?_
  have hne : f ≠ [] := by
    rintro rfl
    exact absurd hlen (by decide)
  rw [byteAt_zero_eq_iff_head? _ hne, byteAt_last_eq_iff_getLast? _ hne]

/-- VALIDATE of a running block returns the verdict, and changes nothing else. -/
theorem exec_validate_of_eq {s : State} {f : Bytes} {v : Bool} (hrun : s.run = .running)
    (hv : validateFrame f = v) : exec (.validate f) s = .next { s with results := s.results ++ [.verdict v] } := by
  subst hv
  exact whenRunning_of_running hrun

/-- Settles O29: the verdict is `validateFrame` of the operand, which is the conjunction of the four tests. -/
theorem validateReportsTheFourTests : Obligations.ValidateReportsTheFourTests :=
  ⟨fun _ _ => rfl,
    fun _ f hrun => ⟨validateFrame f, exec_validate_of_eq hrun rfl, validateFrame_iff_ends⟩,
    fun _ hrun => ⟨exec_validate_of_eq hrun (by decide +kernel), exec_validate_of_eq hrun (by decide)⟩⟩

end Sys2Proof.Machine
end

section
/-! 43_extract.md: X.POP (R171). What it does to each form of accumulator, and that there is no further form. -/

namespace Sys2Proof.Machine

/-- The forms of `acc_cases`, with the noise and the bytes after the start marker named once for the last two. -/
theorem acc_forms (acc : Bytes) :
    startMarker ∉ acc ∨ ∃ g b : Bytes, startMarker ∉ g ∧ endMarker ∉ b ∧
      (acc = g ++ startMarker :: b ∨ ∃ r : Bytes, acc = g ++ startMarker :: (b ++ endMarker :: r)) := by
  obtain hs | ⟨g, b, hacc, hg, hb⟩ | ⟨g, b, r, hacc, hg, hb⟩ := acc_cases acc
  · exact .inl hs
  · exact .inr ⟨g, b, hg, hb, .inl hacc⟩
  · exact .inr ⟨g, b, hg, hb, .inr ⟨r, hacc⟩⟩

/-- Settles O38: X.POP returns and keeps what `popAcc` finds in the accumulator, which has one of three forms. -/
theorem popFollowsItsSixSteps : Obligations.PopFollowsItsSixSteps := by
  refine ⟨fun _ => rfl, fun s hrun => ⟨fun hs => ?noStart, fun g b hacc hg hb => ?noEnd,
    fun g b r hacc hg hb => ?frame, acc_forms s.acc⟩⟩
  case noStart => exact exec_xPop_of_popAcc hrun (popAcc_no_start hs)
  case noEnd => exact exec_xPop_of_popAcc hrun ((congrArg popAcc hacc).trans (popAcc_no_end hg hb))
  case frame => exact exec_xPop_of_popAcc hrun ((congrArg popAcc hacc).trans (popAcc_frame hg hb))

end Sys2Proof.Machine
end

section
/-! 60_exceptions.md: EncodingError (R201). An operation reads the parameters and `ACC` alone, and ends with one result
and an accumulator; only the transmit side returns an encoding error, and it keeps `ACC`. -/

namespace Sys2Proof.Machine

@[simp] theorem withAcc_self (s : State) : withAcc s.acc s = s := rfl

/-- On every block with parameters `P` and accumulator `a`, whatever else it holds, `i` leaves the accumulator `a'` and
concludes with the one result `r`. -/
def AlwaysEnds (P : Params) (a : Bytes) (i : Instr) (r : Result) (a' : Bytes) : Prop :=
  ∀ s : State, s.params = P → s.acc = a → exec i s = whenRunning s (conclude r (withAcc a' s))

/-- An operation that ends without side effect is one that ends with the accumulator it found. -/
theorem AlwaysAnswers.alwaysEnds {P : Params} {i : Instr} {r : Result} (h : AlwaysAnswers P i r) (a : Bytes) :
    AlwaysEnds P a i r a := by
  rintro s hp rfl
  exact h s hp

theorem xPush_alwaysEnds (P : Params) (a c : Bytes) :
    ∃ r a', AlwaysEnds P a (.xPush c) r a' ∧ ∀ e, r ≠ .encodingError e := by
  cases hfit : fits P.accCap a c with
  | true =>
    refine ⟨.done, a ++ c, ?_, nofun⟩
    rintro s rfl rfl
    simp [exec, execXPush, pushChunk, hfit, conclude]
  | false =>
    refine ⟨.fault .accOverflow, a, ?_, nofun⟩
    rintro s rfl rfl
    simp [exec, execXPush, pushChunk, hfit, conclude]

theorem xPop_alwaysEnds (P : Params) (a : Bytes) :
    AlwaysEnds P a .xPop (.candidate (popAcc a).1) (popAcc a).2 := by
  rintro s - rfl
  rfl

theorem rxStep_alwaysEnds (P : Params) (a c : Bytes) :
    ∃ r a', AlwaysEnds P a (.rxStep c) r a' ∧ ∀ e, r ≠ .encodingError e := by
  cases hfit : fits P.accCap a c with
  | true =>
    refine ⟨.snapshots (rxDrain ((a ++ c).length + 1) (a ++ c)).1,
      (rxDrain ((a ++ c).length + 1) (a ++ c)).2, ?_, nofun⟩
    rintro s rfl rfl
    simp [exec, execRxStep, receiveChunk, hfit, conclude]
  | false =>
    refine ⟨.fault .accOverflow, a, ?_, nofun⟩
    rintro s rfl rfl
    simp [exec, execRxStep, receiveChunk, hfit, conclude]

theorem reset_alwaysEnds (P : Params) (a : Bytes) : AlwaysEnds P a .reset .done [] := fun _ _ _ => rfl

/-- A wire format is RX.STEP of its bytes (R79). -/
theorem exec_eq_exec_rxStep {i : Instr} {f : Bytes} (hf : i.frameBytes = some f) : exec i = exec (.rxStep f) := by
  cases i <;> cases hf <;> rfl

/-- How every operation ends; an encoding error keeps `ACC`. -/
theorem exists_alwaysEnds (P : Params) (a : Bytes) (i : Instr) :
    ∃ r a', AlwaysEnds P a i r a' ∧ ∀ e, r = .encodingError e → a' = a := by
  by_cases hside : sideOf i = .transmit ∨ sideOf i = .pure
  · obtain ⟨r, hr⟩ := exists_alwaysAnswers P hside
    exact ⟨r, a, hr.alwaysEnds a, fun _ _ => rfl⟩
  suffices h : ∃ r a', AlwaysEnds P a i r a' ∧ ∀ e, r ≠ .encodingError e by
    obtain ⟨r, a', hends, hne⟩ := h
    exact ⟨r, a', hends, fun e he => absurd he (hne e)⟩
  cases hf : i.frameBytes with
  | some f => simpa only [AlwaysEnds, exec_eq_exec_rxStep hf] using rxStep_alwaysEnds P a f
  | none =>
    cases i with
    | xPush c => exact xPush_alwaysEnds P a c
    | xPop => exact ⟨_, _, xPop_alwaysEnds P a, nofun⟩
    | rxStep c => exact rxStep_alwaysEnds P a c
    | reset => exact ⟨_, _, reset_alwaysEnds P a, nofun⟩
    | _ => simp [sideOf, Instr.frameBytes, encode] at hside hf

/-- A step that adds an encoding error adds nothing else, and only a running block takes it. -/
theorem eq_record_of_encodingError {i : Instr} {s t : State} {e : EncodingReason} (h : exec i s = .next t)
    (ht : t.results = s.results ++ [.encodingError e]) : t = record (.encodingError e) s ∧ s.run = .running := by
  obtain ⟨r, a', hends, hacc⟩ := exists_alwaysEnds s.params s.acc i
  rw [hends s rfl rfl] at h
  obtain ⟨hrun, rfl⟩ := whenRunning_next h
  obtain rfl : r = .encodingError e := by simpa using ht
  obtain rfl : a' = s.acc := hacc e rfl
  exact ⟨rfl, hrun⟩

theorem conclude_with_results (r : Result) (a : Bytes) (s : State) (rs : List Result) :
    conclude r (withAcc a { s with results := rs }) =
      { conclude r (withAcc a s) with results := rs ++ [r] } := by
  cases r <;> rfl

/-- No operation reads the results already recorded: with others in their place it ends alike. -/
theorem exec_with_results {j : Instr} {s u : State} (h : exec j s = .next u) (rs : List Result) :
    ∃ r : Result, u.results = s.results ++ [r] ∧
      exec j { s with results := rs } = .next { u with results := rs ++ [r] } := by
  obtain ⟨r, a', hends, -⟩ := exists_alwaysEnds s.params s.acc j
  rw [hends s rfl rfl] at h
  obtain ⟨hrun, rfl⟩ := whenRunning_next h
  refine ⟨r, conclude_results r _, ?_⟩
  rw [hends { s with results := rs } rfl rfl, conclude_with_results]
  exact whenRunning_of_running hrun

theorem framesOf_append_encodingError (rs : List Result) (e : EncodingReason) :
    framesOf (rs ++ [.encodingError e]) = framesOf rs := by
  simp [framesOf]

/-- Settles O28: the error is the one difference between the two states, and no later operation reads it. -/
theorem encodingErrorChangesNothing : Obligations.EncodingErrorChangesNothing := by
  intro i s t e h ht
  obtain ⟨rfl, hrun⟩ := eq_record_of_encodingError h ht
  exact ⟨rfl, hrun, framesOf_append_encodingError s.results e, fun _ _ hu => exec_with_results hu _⟩

end Sys2Proof.Machine
end

section
/-! One step of the block, and how every instruction ends: 30_encoding.md section 1, 20_memory.md section 3 and
60_exceptions.md section 1. Proofs about all instructions go by the cases of `Ends`. -/

namespace Sys2Proof.Machine

/-- How an instruction of a running block with parameters `P` and accumulator `a` ends: `Ends P a i r a'` is one result
`r` and the accumulator `a'`. A wire format ends as RX.STEP of its bytes does (log entry 10). -/
inductive Ends (P : Params) (a : Bytes) : Instr → Result → Bytes → Prop
  | crc {b : Bytes} {n : Nat} : n ≤ b.length → Ends P a (.crc16 b n) (.crc (crc16 b n)) a
  | crcLengthRange {b : Bytes} {n : Nat} : ¬n ≤ b.length → Ends P a (.crc16 b n) (.fault .crcLengthRange) a
  | readall : Ends P a .encReadall (.frame (readallFrame P)) a
  | voltage {ch : Nat} {v : Decimal} {raw : U16} : ch = 1 ∨ ch = 2 → toRaw v scaleV = .ok raw →
      Ends P a (.encSetv ch v)
        (.frame (setFrame P P.fcSet (if ch = 1 then P.addrV1 else P.addrV2) (hi8 raw) (lo8 raw))) a
  | voltageError {ch : Nat} {v : Decimal} {e : EncodingReason} : ch = 1 ∨ ch = 2 → toRaw v scaleV = .error e →
      Ends P a (.encSetv ch v) (.encodingError e) a
  | voltageChannel {ch : Nat} {v : Decimal} : ¬(ch = 1 ∨ ch = 2) → Ends P a (.encSetv ch v) (.fault .illegalOperand) a
  | current {ch : Nat} {v : Decimal} {raw : U16} : ch = 1 ∨ ch = 2 → toRaw v scaleI = .ok raw →
      Ends P a (.encSeti ch v)
        (.frame (setFrame P P.fcSet (if ch = 1 then P.addrI1 else P.addrI2) (hi8 raw) (lo8 raw))) a
  | currentError {ch : Nat} {v : Decimal} {e : EncodingReason} : ch = 1 ∨ ch = 2 → toRaw v scaleI = .error e →
      Ends P a (.encSeti ch v) (.encodingError e) a
  | currentChannel {ch : Nat} {v : Decimal} : ¬(ch = 1 ∨ ch = 2) → Ends P a (.encSeti ch v) (.fault .illegalOperand) a
  | output (b : Bool) : Ends P a (.encSetout b) (.frame (setFrame P fcFlag P.addrOut 0x00 (flagByte b))) a
  | serial (b : Bool) : Ends P a (.encSetser b) (.frame (setFrame P fcFlag P.addrSerPar 0x00 (flagByte b))) a
  | parallel (b : Bool) : Ends P a (.encSetpar b) (.frame (setFrame P fcFlag P.addrSerPar 0x00 (parallelByte b))) a
  | verdict (f : Bytes) : Ends P a (.validate f) (.verdict (validateFrame f)) a
  | parsed {f : Bytes} {x : Snapshot} : parseFrame f = .ok x → Ends P a (.parse f) (.snapshot x) a
  | notParsed {f : Bytes} {e : ParseReason} : parseFrame f = .error e → Ends P a (.parse f) (.parseError e) a
  | pushed {c : Bytes} : fits P.accCap a c = true → Ends P a (.xPush c) .done (a ++ c)
  | pushOverflow {c : Bytes} : fits P.accCap a c = false → Ends P a (.xPush c) (.fault .accOverflow) a
  | popped {c : Option Bytes} {a' : Bytes} : popAcc a = (c, a') → Ends P a .xPop (.candidate c) a'
  | received {i : Instr} {c : Bytes} : i = .rxStep c ∨ i.frameBytes = some c → fits P.accCap a c = true →
      Ends P a i (.snapshots (rxDrain ((a ++ c).length + 1) (a ++ c)).1) (rxDrain ((a ++ c).length + 1) (a ++ c)).2
  | receiveOverflow {i : Instr} {c : Bytes} : i = .rxStep c ∨ i.frameBytes = some c → fits P.accCap a c = false →
      Ends P a i (.fault .accOverflow) a
  | reset : Ends P a .reset .done []

/-- The next state `u` is that of some end of `i`. -/
def EndsIn (i : Instr) (s u : State) : Prop :=
  ∃ r a', Ends s.params s.acc i r a' ∧ u = conclude r (withAcc a' s)

theorem endsIn_of_receiveChunk {i : Instr} {s : State} {c : Bytes} (hi : i = .rxStep c ∨ i.frameBytes = some c) :
    EndsIn i s (receiveChunk c s) := by
  obtain ⟨hfit, h⟩ | ⟨hfit, h⟩ := receiveChunk_cases c s
  · exact ⟨_, _, .received hi hfit, h⟩
  · exact ⟨_, _, .receiveOverflow hi hfit, h⟩

theorem endsIn_of_pushChunk (c : Bytes) (s : State) : EndsIn (.xPush c) s (pushChunk c s) := by
  obtain ⟨hfit, h⟩ | ⟨hfit, h⟩ := pushChunk_cases c s
  · exact ⟨_, _, .pushed hfit, h⟩
  · exact ⟨_, _, .pushOverflow hfit, h⟩

theorem endsIn_of_voltageCommand (ch : Nat) (v : Decimal) (s : State) :
    EndsIn (.encSetv ch v) s (valueCommand ch v scaleV s.params.addrV1 s.params.addrV2 s) := by
  obtain ⟨hc, h⟩ | ⟨hc, e, he, h⟩ | ⟨hc, raw, hr, h⟩ :=
    valueCommand_cases ch v scaleV s.params.addrV1 s.params.addrV2 s
  · exact ⟨_, _, .voltageChannel hc, h⟩
  · exact ⟨_, _, .voltageError hc he, h⟩
  · exact ⟨_, _, .voltage hc hr, h⟩

theorem endsIn_of_currentCommand (ch : Nat) (v : Decimal) (s : State) :
    EndsIn (.encSeti ch v) s (valueCommand ch v scaleI s.params.addrI1 s.params.addrI2 s) := by
  obtain ⟨hc, h⟩ | ⟨hc, e, he, h⟩ | ⟨hc, raw, hr, h⟩ :=
    valueCommand_cases ch v scaleI s.params.addrI1 s.params.addrI2 s
  · exact ⟨_, _, .currentChannel hc, h⟩
  · exact ⟨_, _, .currentError hc he, h⟩
  · exact ⟨_, _, .current hc hr, h⟩

/-- Every instruction is performed by a running block alone, and ends in one of the ways of `Ends`. -/
theorem exec_eq_whenRunning (i : Instr) (s : State) : ∃ u, EndsIn i s u ∧ exec i s = whenRunning s u := by
  cases hf : i.frameBytes with
  | some f =>
    rw [exec_eq_exec_rxStep hf]
    exact ⟨_, endsIn_of_receiveChunk (.inr hf), rfl⟩
  | none =>
    cases i with
    | crc16 b n =>
      by_cases hn : n ≤ b.length
      · exact ⟨_, ⟨_, _, .crc hn, rfl⟩, by simp [exec, execCrc16, hn, conclude]⟩
      · exact ⟨_, ⟨_, _, .crcLengthRange hn, rfl⟩, by simp [exec, execCrc16, hn, conclude]⟩
    | encReadall => exact ⟨_, ⟨_, _, .readall, rfl⟩, rfl⟩
    | encSetv ch v => exact ⟨_, endsIn_of_voltageCommand ch v s, rfl⟩
    | encSeti ch v => exact ⟨_, endsIn_of_currentCommand ch v s, rfl⟩
    | encSetout b => exact ⟨_, ⟨_, _, .output b, rfl⟩, rfl⟩
    | encSetser b => exact ⟨_, ⟨_, _, .serial b, rfl⟩, rfl⟩
    | encSetpar b => exact ⟨_, ⟨_, _, .parallel b, rfl⟩, rfl⟩
    | validate f => exact ⟨_, ⟨_, _, .verdict f, rfl⟩, rfl⟩
    | parse f =>
      cases hp : parseFrame f with
      | ok x => exact ⟨_, ⟨_, _, .parsed hp, rfl⟩, by simp [exec, execParse, hp, conclude]⟩
      | error e => exact ⟨_, ⟨_, _, .notParsed hp, rfl⟩, by simp [exec, execParse, hp, conclude]⟩
    | xPush c => exact ⟨_, endsIn_of_pushChunk c s, rfl⟩
    | xPop => exact ⟨_, ⟨_, _, .popped rfl, rfl⟩, rfl⟩
    | rxStep c => exact ⟨_, endsIn_of_receiveChunk (.inl rfl), rfl⟩
    | reset => exact ⟨_, ⟨_, _, .reset, rfl⟩, rfl⟩
    | _ => cases hf

/-- The inversion rule of the block: what a next state says about the instruction. -/
theorem ends_of_exec {i : Instr} {s t : State} (h : exec i s = .next t) :
    s.run = .running ∧ ∃ r a', Ends s.params s.acc i r a' ∧ t = conclude r (withAcc a' s) := by
  obtain ⟨u, hu, he⟩ := exec_eq_whenRunning i s
  obtain ⟨hrun, rfl⟩ := whenRunning_next (he.symm.trans h)
  exact ⟨hrun, hu⟩

/-- The same, with the result read off the list. -/
theorem ends_of_exec_result {i : Instr} {s t : State} {r : Result} (h : exec i s = .next t)
    (ht : t.results = s.results ++ [r]) :
    s.run = .running ∧ ∃ a', Ends s.params s.acc i r a' ∧ t = conclude r (withAcc a' s) := by
  obtain ⟨hrun, r', a', hends, rfl⟩ := ends_of_exec h
  obtain rfl : r' = r := by simpa using ht
  exact ⟨hrun, a', hends, rfl⟩

/-- RUN after an operation: a model fault enters its state, any other result leaves RUN (R204). -/
theorem conclude_run_cases (r : Result) (s : State) :
    (isFault r = false ∧ (conclude r s).run = s.run) ∨
      ∃ f : ModelFault, r = .fault f ∧ (conclude r s).run = .faulted f := by
  cases r with
  | fault f => exact .inr ⟨f, rfl, rfl⟩
  | _ => exact .inl ⟨rfl, rfl⟩

/-- A wire format is on the receive side. -/
theorem sideOf_of_frameBytes {i : Instr} {f : Bytes} (hf : i.frameBytes = some f) : sideOf i = .receive := by
  cases i <;> cases hf <;> rfl

/-- RX.STEP and the wire formats are on the receive side. -/
theorem sideOf_receiving {i : Instr} {c : Bytes} (hi : i = .rxStep c ∨ i.frameBytes = some c) :
    sideOf i = .receive := by
  obtain rfl | hf := hi
  · rfl
  · exact sideOf_of_frameBytes hf

/-- Transmit and pure operations do not write `ACC` (R49). -/
theorem Ends.acc_eq {P : Params} {a a' : Bytes} {i : Instr} {r : Result} (h : Ends P a i r a')
    (hi : sideOf i = .transmit ∨ sideOf i = .pure) : a' = a := by
  cases h with
  | received hrx => simp [sideOf_receiving hrx] at hi
  | pushed | popped | reset => simp [sideOf] at hi
  | _ => rfl

/-- The one fault of the receive side and RESET is `AccOverflow`, before any change of `ACC` (R55). -/
theorem Ends.fault_of_receive {P : Params} {a a' : Bytes} {i : Instr} {r : Result} {f : ModelFault}
    (h : Ends P a i r a') (hr : r = .fault f) (hi : sideOf i = .receive ∨ sideOf i = .control) :
    f = .accOverflow ∧ a' = a := by
  subst hr
  cases h with
  | pushOverflow | receiveOverflow => exact ⟨rfl, rfl⟩
  | _ => simp [sideOf] at hi

/-- Settles O50: a transmit or pure operation ends with the accumulator it found. -/
theorem transmitAndPureOperationsKeepTheState : Obligations.TransmitAndPureOperationsKeepTheState := by
  intro i s t hside h
  obtain ⟨-, r, a', hends, rfl⟩ := ends_of_exec h
  obtain rfl := hends.acc_eq hside
  exact ⟨by simp, by simp, by simp, r, by simp, conclude_run_cases r s⟩

/-- Settles O51: a result of the receive side is no fault, or the overflow that keeps `ACC`. -/
theorem receiveOperationsWriteOnlyTheAccumulator : Obligations.ReceiveOperationsWriteOnlyTheAccumulator := by
  intro i s t hside h
  obtain ⟨-, r, a', hends, rfl⟩ := ends_of_exec h
  refine ⟨by simp, by simp, r, by simp, ?_⟩
  obtain hok | ⟨f, hf, hrun⟩ := conclude_run_cases r (withAcc a' s)
  · exact .inl hok
  · obtain ⟨rfl, rfl⟩ := hends.fault_of_receive hf hside
    exact .inr ⟨hf, hrun, by simp⟩

end Sys2Proof.Machine
end

section
/-! One step of the block (R60, R48, R215): what is presented is taken, decoded and performed. -/

namespace Sys2Proof.Machine

/-- A step of the block: idle, one instruction performed (a frame of no known format as RX.STEP of its bytes, log entry
12), or the fault of an unassigned code (R77). -/
theorem step_cases {s t : State} (h : step s = .next t) :
    (s.pending = [] ∧ s.run = .running ∧ t = s) ∨
    ∃ e rest, s.pending = e :: rest ∧
      ((∃ i, exec i { s with pending := rest } = .next t) ∨
        (s.run = .running ∧ t = enterFault .illegalOp { s with pending := rest })) := by
  cases hp : s.pending with
  | nil =>
    obtain ⟨hrun, rfl⟩ := whenRunning_next (show whenRunning s s = .next t by simpa [step, fetch, hp, idle] using h)
    exact .inl ⟨rfl, hrun, rfl⟩
  | cons e rest =>
    refine .inr ⟨e, rest, rfl, ?_⟩
    cases hd : decode s.params e with
    | ok i => exact .inl ⟨i, by simpa [step, fetch, hp, hd] using h⟩
    | error d =>
      have hu : undecoded e { s with pending := rest } = .next t := by simpa [step, fetch, hp, hd] using h
      cases e with
      | request r =>
        obtain ⟨hrun, rfl⟩ := whenRunning_next hu
        exact .inr ⟨hrun, rfl⟩
      | frame f => exact .inl ⟨.rxStep f, hu⟩

/-- Settles O4: `fetch` takes the oldest event, and the step performs what it decodes to. -/
theorem stepRunsTheDecodedInstruction : Obligations.StepRunsTheDecodedInstruction := by
  intro s e rest i hp hd
  simp [step, fetch, hp, hd]

/-- A faulted block performs no instruction (R204). -/
theorem exec_of_faulted {s : State} {f : ModelFault} (i : Instr) (hrun : s.run = .faulted f) :
    exec i s = .fault (.noStep f) := by
  obtain ⟨u, -, he⟩ := exec_eq_whenRunning i s
  rw [he, whenRunning_of_faulted hrun]

/-- Settles O3: no instruction is performed, and the step is an instruction, a rejected event or idle. -/
theorem faultedBlockHasNoStep : Obligations.FaultedBlockHasNoStep := by
  intro s f hrun
  refine ⟨fun i => exec_of_faulted i hrun, ?_⟩
  cases hp : s.pending with
  | nil => simp [step, fetch, hp, idle, hrun]
  | cons e rest =>
    cases hd : decode s.params e with
    | ok i =>
      rw [stepRunsTheDecodedInstruction s e rest i hp hd]
      exact exec_of_faulted i hrun
    | error d => cases e <;> simp [step, fetch, hp, hd, undecoded, hrun]

/-- Settles O5: an empty queue is an idle step. -/
theorem idleBlockHoldsItsState : Obligations.IdleBlockHoldsItsState := by
  intro s hrun hp
  simp [step, fetch, hp, idle, hrun]

/-- A code that is none of the thirteen is rejected by name (R77). -/
theorem decodeRequest_unassigned {r : Request}
    (h : r.op ∉ [0x01, 0x10, 0x11, 0x12, 0x13, 0x14, 0x15, 0x20, 0x21, 0x30, 0x31, 0x32, 0x3F]) :
    decodeRequest r = .error (.illegalOp r.op) := by
  simp only [List.mem_cons, List.not_mem_nil, or_false, not_or] at h
  simp only [decodeRequest, h, if_false]

/-- Settles O6: the decoder rejects the code, and a rejected request enters the fault. -/
theorem unassignedCodeFaults : Obligations.UnassignedCodeFaults := by
  intro s r rest hrun hp hop
  have hd : decode s.params (.request r) = .error (.illegalOp r.op) := decodeRequest_unassigned hop
  simp only [step, fetch, hp, hd, undecoded]
  exact whenRunning_of_running hrun

/-- Settles O7: a rejected frame is received as RX.STEP receives its bytes. -/
theorem unknownFrameIsReceivedAsAChunk : Obligations.UnknownFrameIsReceivedAsAChunk := by
  intro s f rest e hp hd
  simp [step, fetch, hp, hd, undecoded, exec, execRxStep]

/-- What the decoder reads from a table word, it reads from the event the word stands for. -/
theorem decode_of_decodeTableWord {nbits w : Nat} {i : Instr} (h : decodeTableWord nbits w = some i) :
    decode Config.params (tableEvent nbits w) = .ok i := by
  cases hd : decode Config.params (tableEvent nbits w) with
  | ok j => simpa [decodeTableWord, hd] using h
  | error e => simp [decodeTableWord, hd] at h

/-- Settles O8: the word stands first in the queue, and taking it leaves the state it was presented to. -/
theorem fetchWordRunsTheTableWord : Obligations.FetchWordRunsTheTableWord := by
  intro s nbits w i hparams h
  refine stepRunsTheDecodedInstruction (s.withFetchWord nbits w) (tableEvent nbits w) s.pending i rfl ?_
  exact (congrArg (decode · _) hparams).trans (decode_of_decodeTableWord h)

/-- Settles O53: by the cases of a step; an instruction ends with one result. -/
theorem stepKeepsParametersAndHistory : Obligations.StepKeepsParametersAndHistory := by
  intro s t h
  obtain ⟨hp, -, rfl⟩ | ⟨e, rest, hp, ⟨i, hi⟩ | ⟨-, rfl⟩⟩ := step_cases h
  · exact ⟨rfl, .inl ⟨hp, rfl⟩⟩
  · obtain ⟨-, r, a', -, rfl⟩ := ends_of_exec hi
    exact ⟨by simp, .inr ⟨e, r, by simpa using hp, by simp⟩⟩
  · exact ⟨by simp, .inr ⟨e, .fault .illegalOp, by simpa using hp, by simp⟩⟩

end Sys2Proof.Machine
end

section
/-! 41_encode.md section 3 (R118, R121): every frame the encoder emits passes VALIDATE, and is of its wire format. -/

namespace Sys2Proof.Machine

/-- A built frame whose body begins with the start marker passes VALIDATE (R121). -/
theorem validateFrame_mkframe {body : Bytes} (hlen : 3 ≤ body.length) (hstart : body.head? = some startMarker) :
    validateFrame (mkframe body) = true := by
  refine validateFrame_iff_ends.mpr ⟨?_, ?_, ?_, (embeddedCrc_mkframe body).trans (crc16_mkframe body).symm⟩
  · simp only [mkframe_length, minValidLen]
    omega
  · simp [mkframe, hstart]
  · simp [mkframe]

theorem readallFrame_fits (P : Params) : ResultFits (.frame (readallFrame P)) :=
  ⟨validateFrame_mkframe (by decide : 3 ≤ 5) rfl, .inl rfl⟩

theorem setFrame_fits (P : Params) (fc addr valHi valLo : Byte) :
    ResultFits (.frame (setFrame P fc addr valHi valLo)) :=
  ⟨validateFrame_mkframe (by decide : 3 ≤ 8) rfl, .inr rfl⟩

/-- A frame ends a transmit operation alone, and is whole and valid (R118, R121). -/
theorem Ends.frame_fits {P : Params} {a a' : Bytes} {i : Instr} {f : Bytes} (h : Ends P a i (.frame f) a') :
    sideOf i = .transmit ∧ ResultFits (.frame f) := by
  cases h with
  | readall => exact ⟨rfl, readallFrame_fits P⟩
  | voltage | current | output | serial | parallel => exact ⟨rfl, setFrame_fits _ _ _ _ _⟩

/-- Settles O26: the frame fits, so VALIDATE on the block after it, which still runs, says true. -/
theorem emittedFramesValidate : Obligations.EmittedFramesValidate := by
  intro i s t f h ht
  obtain ⟨hrun, a', hends, rfl⟩ := ends_of_exec_result h ht
  obtain ⟨hside, hvalid, hlen⟩ := hends.frame_fits
  exact ⟨hside, hlen, exec_validate_of_eq hrun hvalid⟩

/-- The frame builder puts the right CRC in (R63, R110). -/
theorem crcFits_mkframe (body : Bytes) : crcFits (mkframe body) = true := by
  simp only [crcFits, embeddedCrc_mkframe, crc16_mkframe, beq_self_eq_true]

/-- The encoder's set commands are set formats (R67). -/
theorem setFrame_eq_setBytes (P : Params) (fc addr valHi valLo : Byte) : ∃ cl ch : Byte,
    setFrame P fc addr valHi valLo = setBytes P.prefix0 P.prefix1 fc addr valHi valLo cl ch := ⟨_, _, rfl⟩

/-- The encoder's value commands are well-formed (R67, R68). -/
theorem setWf_setFrame (P : Params) (addr valHi valLo : Byte) : ∃ cl ch : Byte,
    setFrame P P.fcSet addr valHi valLo = setBytes P.prefix0 P.prefix1 P.fcSet addr valHi valLo cl ch ∧
    setWf P addr P.prefix0 P.prefix1 P.fcSet addr valHi valLo cl ch = true := by
  obtain ⟨cl, ch, hf⟩ := setFrame_eq_setBytes P P.fcSet addr valHi valLo
  refine ⟨cl, ch, hf, ?_⟩
  simp only [setWf, ← hf, beq_self_eq_true, Bool.true_and]
  exact crcFits_mkframe _

/-- The encoder's flag commands are well-formed (R67, R68). -/
theorem flagWf_setFrame (P : Params) (addr valLo : Byte) : ∃ cl ch : Byte,
    setFrame P fcFlag addr 0x00 valLo = setBytes P.prefix0 P.prefix1 fcFlag addr 0x00 valLo cl ch ∧
    flagWf P addr P.prefix0 P.prefix1 addr valLo cl ch = true := by
  obtain ⟨cl, ch, hf⟩ := setFrame_eq_setBytes P fcFlag addr 0x00 valLo
  refine ⟨cl, ch, hf, ?_⟩
  simp only [flagWf, ← hf, beq_self_eq_true, Bool.true_and]
  exact crcFits_mkframe _

/-- The encoder's read-all command is a read-all format (R66). -/
theorem readallFrame_eq (P : Params) : ∃ cl ch : Byte,
    readallFrame P = [startMarker, P.prefix0, P.prefix1, P.raBody0, P.raBody1, cl, ch, endMarker] := ⟨_, _, rfl⟩

/-- The encoder's read-all command is well-formed (R66). -/
theorem wf_readallFrame (P : Params) : ∃ cl ch : Byte,
    readallFrame P = [startMarker, P.prefix0, P.prefix1, P.raBody0, P.raBody1, cl, ch, endMarker] ∧
    Instr.wf P (.wireReadall P.prefix0 P.prefix1 P.raBody0 P.raBody1 cl ch) = true := by
  obtain ⟨cl, ch, hf⟩ := readallFrame_eq P
  refine ⟨cl, ch, hf, ?_⟩
  simp only [Instr.wf, ← hf, beq_self_eq_true, Bool.true_and]
  exact crcFits_mkframe _

/-- `f` is the frame of a well-formed instruction of the wire format that `i` emits. -/
def HasWireFormat (P : Params) (i : Instr) (f : Bytes) : Prop :=
  ∃ (w : Instr) (m : String), formatOf i = some m ∧ mnemonicOf w = m ∧ w.wf P = true ∧ w.frameBytes = some f

theorem hasWireFormat_voltage (P : Params) {ch : Nat} (v : Decimal) (hch : ch = 1 ∨ ch = 2) (valHi valLo : Byte) :
    HasWireFormat P (.encSetv ch v)
      (setFrame P P.fcSet (if ch = 1 then P.addrV1 else P.addrV2) valHi valLo) := by
  obtain ⟨cl, cr, hf, hwf⟩ := setWf_setFrame P (if ch = 1 then P.addrV1 else P.addrV2) valHi valLo
  obtain rfl | rfl := hch
  · exact ⟨.wireSetv1 _ _ _ _ _ _ _ _, _, rfl, rfl, hwf, congrArg some hf.symm⟩
  · exact ⟨.wireSetv2 _ _ _ _ _ _ _ _, _, rfl, rfl, hwf, congrArg some hf.symm⟩

theorem hasWireFormat_current (P : Params) {ch : Nat} (v : Decimal) (hch : ch = 1 ∨ ch = 2) (valHi valLo : Byte) :
    HasWireFormat P (.encSeti ch v)
      (setFrame P P.fcSet (if ch = 1 then P.addrI1 else P.addrI2) valHi valLo) := by
  obtain ⟨cl, cr, hf, hwf⟩ := setWf_setFrame P (if ch = 1 then P.addrI1 else P.addrI2) valHi valLo
  obtain rfl | rfl := hch
  · exact ⟨.wireSeti1 _ _ _ _ _ _ _ _, _, rfl, rfl, hwf, congrArg some hf.symm⟩
  · exact ⟨.wireSeti2 _ _ _ _ _ _ _ _, _, rfl, rfl, hwf, congrArg some hf.symm⟩

/-- A frame an operation ends with has the operation's wire format. -/
theorem Ends.hasWireFormat {P : Params} {a a' : Bytes} {i : Instr} {f : Bytes} (h : Ends P a i (.frame f) a') :
    HasWireFormat P i f := by
  cases h with
  | readall =>
    obtain ⟨cl, cr, hf, hwf⟩ := wf_readallFrame P
    exact ⟨.wireReadall _ _ _ _ cl cr, _, rfl, rfl, hwf, congrArg some hf.symm⟩
  | voltage hch _ => exact hasWireFormat_voltage P _ hch _ _
  | current hch _ => exact hasWireFormat_current P _ hch _ _
  | output b =>
    obtain ⟨cl, cr, hf, hwf⟩ := flagWf_setFrame P P.addrOut (flagByte b)
    exact ⟨.wireSetout _ _ _ b cl cr, _, rfl, rfl, hwf, congrArg some hf.symm⟩
  | serial b =>
    obtain ⟨cl, cr, hf, hwf⟩ := flagWf_setFrame P P.addrSerPar (flagByte b)
    exact ⟨.wireSetser _ _ _ b cl cr, _, rfl, rfl, hwf, congrArg some hf.symm⟩
  | parallel b =>
    obtain ⟨cl, cr, hf, hwf⟩ := flagWf_setFrame P P.addrSerPar (parallelByte b)
    exact ⟨.wireSetpar _ _ _ b cl cr, _, rfl, rfl, hwf, congrArg some hf.symm⟩

/-- Settles O27: by the operation that ended with the frame. -/
theorem emittedFramesHaveTheirWireFormat : Obligations.EmittedFramesHaveTheirWireFormat := by
  intro i s t f h ht
  obtain ⟨-, a', hends, -⟩ := ends_of_exec_result h ht
  exact hends.hasWireFormat

end Sys2Proof.Machine
end

section
/-! 43_extract.md section 2: what X.POP finds (R172, R173), and the same of RX.STEP's loop. -/

namespace Sys2Proof.Machine

/-- The bytes from a start marker to the first end marker after it are of the candidate's shape (R173). -/
theorem candidateShape_frame {b : Bytes} (hb : endMarker ∉ b) :
    CandidateShape (startMarker :: (b ++ [endMarker])) := by
  rw [← List.cons_append]
  refine ⟨by simp, rfl, List.getLast?_concat, ?_⟩
  rw [List.dropLast_concat]
  exact endMarker_not_mem_start hb

/-- A candidate has its shape, and stands before what is left and after noise without a start marker (R173). -/
theorem popAcc_some {acc rest c : Bytes} (h : popAcc acc = (some c, rest)) :
    CandidateShape c ∧ ∃ g : Bytes, acc = g ++ c ++ rest ∧ startMarker ∉ g := by
  obtain hs | ⟨g, b, rfl, hg, hb⟩ | ⟨g, b, r, rfl, hg, hb⟩ := acc_cases acc
  · simp [popAcc_no_start hs] at h
  · simp [popAcc_no_end hg hb] at h
  · rw [popAcc_frame hg hb] at h
    injection h with hc hr
    injection hc with hc
    subst hc hr
    exact ⟨candidateShape_frame hb, g, by simp, hg⟩

/-- After a pop that finds nothing the accumulator rests, and is the end of what it was, after noise without a start
marker (R172). -/
theorem popAcc_none {acc rest : Bytes} (h : popAcc acc = (none, rest)) :
    Resting rest ∧ ∃ g : Bytes, acc = g ++ rest ∧ startMarker ∉ g := by
  obtain hs | ⟨g, b, rfl, hg, hb⟩ | ⟨g, b, r, rfl, hg, hb⟩ := acc_cases acc
  · rw [popAcc_no_start hs] at h
    injection h with _ h
    subst h
    exact ⟨.inl rfl, acc, by simp, hs⟩
  · rw [popAcc_no_end hg hb] at h
    injection h with _ h
    subst h
    exact ⟨.inr ⟨rfl, endMarker_not_mem_start hb⟩, g, rfl, hg⟩
  · simp [popAcc_frame hg hb] at h

/-- X.POP takes nothing from a resting accumulator (R172). -/
theorem popAcc_of_resting {acc : Bytes} (h : Resting acc) : popAcc acc = (none, acc) := by
  obtain rfl | ⟨hstart, hend⟩ := h
  · exact popAcc_no_start (by simp)
  · obtain ⟨b, rfl⟩ := List.head?_eq_some_iff.mp hstart
    exact popAcc_no_end (g := []) (by simp) (fun hb => hend (List.mem_cons_of_mem _ hb))

/-- X.POP leaves an end of the accumulator. -/
theorem popAcc_suffix (acc : Bytes) : (popAcc acc).2 <:+ acc := by
  rcases h : popAcc acc with ⟨_ | c, rest⟩
  · obtain ⟨-, g, rfl, -⟩ := popAcc_none h
    exact List.suffix_append g rest
  · obtain ⟨-, g, rfl, -⟩ := popAcc_some h
    exact List.suffix_append (g ++ c) rest

/-- RX.STEP leaves an end of what it drains. -/
theorem rxDrain_suffix (k : Nat) (acc : Bytes) : (rxDrain k acc).2 <:+ acc := by
  induction k generalizing acc with
  | zero => exact List.suffix_refl acc
  | succ k ih =>
    have hpop := popAcc_suffix acc
    rcases h : popAcc acc with ⟨_ | c, rest⟩ <;> rw [h] at hpop
    · simpa [rxDrain, h] using hpop
    · simpa [rxDrain, h] using (ih rest).trans hpop

/-- X.POP ends with what `popAcc` finds. -/
theorem Ends.popAcc_eq {P : Params} {a a' : Bytes} {c : Option Bytes} (h : Ends P a .xPop (.candidate c) a') :
    popAcc a = (c, a') := by
  cases h with
  | popped hp => exact hp

/-- Settles O39: what X.POP leaves with NONE rests, and X.POP takes nothing from a resting accumulator. -/
theorem popReturningNoneRests : Obligations.PopReturningNoneRests := by
  intro s t h ht
  obtain ⟨hrun, a', hends, rfl⟩ := ends_of_exec_result h ht
  have hrest := (popAcc_none hends.popAcc_eq).1
  exact ⟨hrest, exec_xPop_of_popAcc hrun (popAcc_of_resting hrest)⟩

/-- Settles O40: a candidate, the noise before it and what is left after it are the old accumulator. -/
theorem candidatesHaveTheirShape : Obligations.CandidatesHaveTheirShape := by
  intro s t c h ht
  obtain ⟨-, a', hends, rfl⟩ := ends_of_exec_result h ht
  exact popAcc_some hends.popAcc_eq

end Sys2Proof.Machine
end

section
/-! The machine's invariant (20_memory.md section 5, 60_exceptions.md section 1). Every end of an instruction is a
result that fits and an accumulator within the capacity; `conclude` keeps RUN in agreement with the results. -/

namespace Sys2Proof.Machine

/-- The scales of a snapshot are those of its offsets (R141). -/
theorem scalesFit_snapshotOf (f : Bytes) : ScalesFit (snapshotOf f) := ⟨rfl, rfl, rfl, rfl, rfl, rfl, rfl, rfl⟩

theorem scalesFit_of_parseFrame {f : Bytes} {x : Snapshot} (h : parseFrame f = .ok x) : ScalesFit x := by
  obtain ⟨-, -, -, rfl⟩ := parseFrame_eq_ok_iff.mp h
  exact scalesFit_snapshotOf f

/-- The receive path delivers what PARSE returns (R190). -/
theorem parseFrame_of_receiveCandidate {c : Bytes} {x : Snapshot} (h : receiveCandidate c = some x) :
    parseFrame c = .ok x := by
  unfold receiveCandidate at h
  split at h
  · split at h
    · next hp => exact hp.trans (congrArg _ (Option.some.inj h))
    · cases h
  · cases h

/-- RX.STEP's loop delivers snapshots with their scales. -/
theorem scalesFit_of_mem_rxDrain (k : Nat) (acc : Bytes) : ∀ x ∈ (rxDrain k acc).1, ScalesFit x := by
  induction k generalizing acc with
  | zero => simp [rxDrain]
  | succ k ih =>
    rcases h : popAcc acc with ⟨_ | c, rest⟩
    · simp [rxDrain, h]
    · intro x hx
      have hx : receiveCandidate c = some x ∨ x ∈ (rxDrain k rest).1 := by simpa [rxDrain, h] using hx
      obtain hc | hx := hx
      · exact scalesFit_of_parseFrame (parseFrame_of_receiveCandidate hc)
      · exact ih rest x hx

/-- Every result is as the spec says. -/
theorem Ends.resultFits {P : Params} {a a' : Bytes} {i : Instr} {r : Result} (h : Ends P a i r a') : ResultFits r := by
  cases h with
  | readall => exact readallFrame_fits P
  | voltage | current | output | serial | parallel => exact setFrame_fits _ _ _ _ _
  | parsed hp => exact scalesFit_of_parseFrame hp
  | @popped c _ hp =>
    cases c with
    | none => trivial
    | some c => exact (popAcc_some hp).1
  | received => exact scalesFit_of_mem_rxDrain _ _
  | _ => trivial

/-- A chunk that fits keeps the accumulator within a finite capacity (R55). -/
theorem length_append_le_of_fits {cap : Option Nat} {a c : Bytes} {n : Nat} (h : fits cap a c = true)
    (hcap : cap = some n) : (a ++ c).length ≤ n := by
  subst hcap
  simpa [fits] using h

/-- No end exceeds a finite capacity. -/
theorem Ends.length_le {P : Params} {a a' : Bytes} {i : Instr} {r : Result} {n : Nat} (h : Ends P a i r a')
    (hcap : P.accCap = some n) (ha : a.length ≤ n) : a'.length ≤ n := by
  cases h with
  | pushed hfit => exact length_append_le_of_fits hfit hcap
  | popped hp =>
    have hsuffix := popAcc_suffix a
    rw [hp] at hsuffix
    exact hsuffix.length_le.trans ha
  | received hi hfit => exact (rxDrain_suffix _ _).length_le.trans (length_append_le_of_fits hfit hcap)
  | reset => exact Nat.zero_le n
  | _ => exact ha

/-- A running block in agreement with its results is so after one more, RUN as `conclude` leaves it (R204). -/
theorem runAgrees_conclude {s : State} (r : Result) (hrun : s.run = .running) (h : RunAgrees s) :
    RunAgrees (conclude r s) := by
  have hok : ∀ x ∈ s.results, isFault x = false := by simpa only [RunAgrees, hrun] using h
  obtain ⟨hr, hrun'⟩ | ⟨f, hf, hrun'⟩ := conclude_run_cases r s
  · simp only [RunAgrees, hrun', hrun, conclude_results]
    simpa [or_imp, forall_and] using ⟨hok, hr⟩
  · simp only [RunAgrees, hrun', conclude_results]
    exact ⟨s.results, by rw [hf], hok⟩

/-- The queue is no part of the invariant. -/
theorem inv_with_pending {s : State} (evs : List HostEvent) (h : Inv s) : Inv { s with pending := evs } := h

/-- A result that fits and an accumulator within the capacity keep the invariant. -/
theorem inv_conclude {s : State} {r : Result} {a : Bytes} (hrun : s.run = .running) (h : Inv s) (hr : ResultFits r)
    (ha : ∀ n, s.params.accCap = some n → a.length ≤ n) : Inv (conclude r (withAcc a s)) := by
  obtain ⟨-, hdistinct, hfits, hagrees⟩ := h
  refine ⟨?_, by simpa using hdistinct, ?_, runAgrees_conclude r hrun hagrees⟩
  · simpa [WithinCap] using ha
  · simpa [or_imp, forall_and] using ⟨hfits, hr⟩

/-- Every instruction keeps the invariant. -/
theorem inv_exec {i : Instr} {s t : State} (h : Inv s) (ht : exec i s = .next t) : Inv t := by
  obtain ⟨hrun, r, a', hends, rfl⟩ := ends_of_exec ht
  exact inv_conclude hrun h hends.resultFits fun n hcap => hends.length_le hcap (h.1 n hcap)

/-- Settles O55: by the cases of a step; an instruction keeps the invariant, and so does the fault of an unassigned
code. -/
theorem everyStepKeepsTheInvariant : Obligations.EveryStepKeepsTheInvariant := by
  intro s t h ht
  obtain ⟨-, -, rfl⟩ | ⟨e, rest, -, ⟨i, hi⟩ | ⟨hrun, rfl⟩⟩ := step_cases ht
  · exact h
  · exact inv_exec (inv_with_pending rest h) hi
  · exact inv_conclude (r := .fault .illegalOp) hrun (inv_with_pending rest h) trivial h.1

/-- Settles O54: nothing stored, nothing returned, the block running; `Config.params` has distinct addresses. -/
theorem invariantHoldsAtReset : Obligations.InvariantHoldsAtReset := by
  have h (P : Params) (hP : P.distinct = true) : Inv (State.instantiate P) :=
    ⟨fun n _ => Nat.zero_le n, hP, nofun, nofun⟩
  exact ⟨h _ Config.params_distinct, h⟩

end Sys2Proof.Machine
end

section
/-! 30_encoding.md: decode and encode agree, on requests (R60, R61) and on wire frames (R63 to R69, R120). -/

namespace Sys2Proof.Machine

/-- Settles O56: each code is the first of the thirteen tests it passes. -/
theorem requestsRoundTrip : Obligations.RequestsRoundTrip := by
  intro P i hf
  cases i with
  | wireReadall | wireSetv1 | wireSetv2 | wireSeti1 | wireSeti2 | wireSetout | wireSetser | wireSetpar | wireRsp =>
    cases hf
  | _ => rfl

/-- The decoder finds a set command by its four bytes, whatever else it holds (R67, R68). -/
theorem decode_setBytes (P : Params) (p0 p1 fc addr valHi valLo cl ch : Byte) :
    decode P (.frame (setBytes p0 p1 fc addr valHi valLo cl ch)) = decodeSet P p0 p1 fc addr valHi valLo cl ch := rfl

/-- The decoder reads back the fields of a response (R69). -/
theorem decode_rspBytes (P : Params) (r : RspFields) : decode P (.frame (rspBytes r)) = .ok (.wireRsp r) := by
  have h : decode P (.frame (rspBytes r)) = .ok (.wireRsp (rspFieldsOf (rspBytes r))) := rfl
  rw [h]
  simp [rspFieldsOf, rspBytes, byteAt, u16At]

/-- The value addresses are pairwise distinct, one inequality each. -/
theorem distinct_iff {P : Params} : P.distinct = true ↔
    P.addrV1 ≠ P.addrV2 ∧ P.addrV1 ≠ P.addrI1 ∧ P.addrV1 ≠ P.addrI2 ∧ P.addrV2 ≠ P.addrI1 ∧ P.addrV2 ≠ P.addrI2 ∧
      P.addrI1 ≠ P.addrI2 := by
  simp [Params.distinct, and_assoc]

/-- A value command is found by function code and address, its value being read by no test (R68). -/
theorem decodeSet_value {P : Params} (hP : P.distinct = true) :
    (∀ p0 p1 vh vl cl ch, decodeSet P p0 p1 P.fcSet P.addrV1 vh vl cl ch =
      .ok (.wireSetv1 p0 p1 P.fcSet P.addrV1 vh vl cl ch)) ∧
    (∀ p0 p1 vh vl cl ch, decodeSet P p0 p1 P.fcSet P.addrV2 vh vl cl ch =
      .ok (.wireSetv2 p0 p1 P.fcSet P.addrV2 vh vl cl ch)) ∧
    (∀ p0 p1 vh vl cl ch, decodeSet P p0 p1 P.fcSet P.addrI1 vh vl cl ch =
      .ok (.wireSeti1 p0 p1 P.fcSet P.addrI1 vh vl cl ch)) ∧
    (∀ p0 p1 vh vl cl ch, decodeSet P p0 p1 P.fcSet P.addrI2 vh vl cl ch =
      .ok (.wireSeti2 p0 p1 P.fcSet P.addrI2 vh vl cl ch)) := by
  obtain ⟨h12, h13, h14, h23, h24, h34⟩ := distinct_iff.mp hP
  simp [decodeSet, h12.symm, h13.symm, h14.symm, h23.symm, h24.symm, h34.symm]

/-- A flag command's address is that of no value command with its function code (R68, log entry 11). -/
def FlagApart (P : Params) (addr : Byte) : Prop := P.fcSet = fcFlag → addr ∉ [P.addrV1, P.addrV2, P.addrI1, P.addrI2]

/-- A flag command passes over the value rows of R68's table. -/
theorem decodeSet_flag {P : Params} {addr : Byte} (h : FlagApart P addr) (p0 p1 valLo cl ch : Byte) :
    decodeSet P p0 p1 fcFlag addr 0x00 valLo cl ch =
      if addr = P.addrOut ∧ (valLo = 0x00 ∨ valLo = 0x01) then .ok (.wireSetout p0 p1 addr (valLo == 0x01) cl ch)
      else if addr = P.addrSerPar ∧ (valLo = 0x00 ∨ valLo = 0x01) then
        .ok (.wireSetser p0 p1 addr (valLo == 0x01) cl ch)
      else if addr = P.addrSerPar ∧ valLo = 0x02 then .ok (.wireSetpar p0 p1 addr true cl ch)
      else .error (.noCommand fcFlag addr 0x00 valLo) := by
  have hrow (a : Byte) (ha : a ∈ [P.addrV1, P.addrV2, P.addrI1, P.addrI2]) : ¬(fcFlag = P.fcSet ∧ addr = a) := by
    rintro ⟨hfc, rfl⟩
    exact h hfc.symm ha
  rw [decodeSet, if_neg (hrow _ (by simp)), if_neg (hrow _ (by simp)), if_neg (hrow _ (by simp)),
    if_neg (hrow _ (by simp))]
  simp

/-- The flag commands are found by address and value; the parallel "false" is the serial "false" (R120). -/
theorem decodeSet_flags {P : Params} (hout : FlagApart P P.addrOut) (hshared : FlagApart P P.addrSerPar)
    (hne : P.addrOut ≠ P.addrSerPar) :
    (∀ p0 p1 cl ch x, decodeSet P p0 p1 fcFlag P.addrOut 0x00 (flagByte x) cl ch =
      .ok (.wireSetout p0 p1 P.addrOut x cl ch)) ∧
    (∀ p0 p1 cl ch x, decodeSet P p0 p1 fcFlag P.addrSerPar 0x00 (flagByte x) cl ch =
      .ok (.wireSetser p0 p1 P.addrSerPar x cl ch)) ∧
    (∀ p0 p1 cl ch, decodeSet P p0 p1 fcFlag P.addrSerPar 0x00 (parallelByte true) cl ch =
      .ok (.wireSetpar p0 p1 P.addrSerPar true cl ch)) ∧
    (∀ p0 p1 cl ch, decodeSet P p0 p1 fcFlag P.addrSerPar 0x00 (parallelByte false) cl ch =
      .ok (.wireSetser p0 p1 P.addrSerPar false cl ch)) := by
  refine ⟨fun _ _ _ _ x => ?output, fun _ _ _ _ x => ?serial, fun _ _ _ _ => ?parallel, fun _ _ _ _ => ?false⟩
  case output => rw [decodeSet_flag hout]; cases x <;> simp [flagByte]
  case serial => rw [decodeSet_flag hshared]; cases x <;> simp [flagByte, hne.symm]
  case parallel => rw [decodeSet_flag hshared]; simp [parallelByte, hne.symm]
  case false => rw [decodeSet_flag hshared]; simp [parallelByte, hne.symm]

/-- What a well-formed value command fixes. -/
theorem eq_of_setWf {P : Params} {expected p0 p1 fc addr valHi valLo cl ch : Byte}
    (h : setWf P expected p0 p1 fc addr valHi valLo cl ch = true) : fc = P.fcSet ∧ addr = expected := by
  simp only [setWf, Bool.and_eq_true, beq_iff_eq] at h
  obtain ⟨⟨⟨-, hfc⟩, haddr⟩, -⟩ := h
  exact ⟨hfc, haddr⟩

/-- What a well-formed flag command fixes. -/
theorem eq_of_flagWf {P : Params} {expected p0 p1 addr valLo cl ch : Byte}
    (h : flagWf P expected p0 p1 addr valLo cl ch = true) : addr = expected := by
  simp only [flagWf, Bool.and_eq_true, beq_iff_eq] at h
  obtain ⟨⟨-, haddr⟩, -⟩ := h
  exact haddr

/-- Settles O57: the function code and the address, which a well-formed command has as configured, name its row. -/
theorem wireFramesRoundTrip : Obligations.WireFramesRoundTrip := by
  intro P i f ⟨hdistinct, hne, hflags⟩ hf hwf
  obtain ⟨hV1, hV2, hI1, hI2⟩ := decodeSet_value hdistinct
  obtain ⟨hout, hser, hpar, hparFalse⟩ := decodeSet_flags (fun h => (hflags h).1) (fun h => (hflags h).2) hne
  cases i with
  | wireReadall => cases hf; exact .inr rfl
  | wireSetv1 => cases hf; obtain ⟨rfl, rfl⟩ := eq_of_setWf hwf; exact .inr (hV1 ..)
  | wireSetv2 => cases hf; obtain ⟨rfl, rfl⟩ := eq_of_setWf hwf; exact .inr (hV2 ..)
  | wireSeti1 => cases hf; obtain ⟨rfl, rfl⟩ := eq_of_setWf hwf; exact .inr (hI1 ..)
  | wireSeti2 => cases hf; obtain ⟨rfl, rfl⟩ := eq_of_setWf hwf; exact .inr (hI2 ..)
  | wireSetout => cases hf; obtain rfl := eq_of_flagWf hwf; exact .inr (hout ..)
  | wireSetser => cases hf; obtain rfl := eq_of_flagWf hwf; exact .inr (hser ..)
  | wireSetpar p0 p1 a x cl ch =>
    cases hf
    obtain rfl := eq_of_flagWf hwf
    cases x with
    | true => exact .inr (hpar ..)
    | false => exact .inl ⟨p0, p1, P.addrSerPar, cl, ch, rfl, hparFalse ..⟩
  | wireRsp r => cases hf; exact .inr (decode_rspBytes P r)
  | _ => cases hf

/-- A byte sequence is the list of its bytes by offset. -/
theorem map_byteAt_range (f : Bytes) : (List.range f.length).map (byteAt f) = f := by
  refine List.ext_getElem (by simp) fun k hk _ => ?_
  have hk : k < f.length := by simpa using hk
  simp [byteAt, hk]

/-- Whatever row of R68's table a set command is found in, its bytes are the ones read. -/
theorem frameBytes_of_decodeSet {P : Params} {p0 p1 fc addr valHi valLo cl ch : Byte} {i : Instr}
    (h : decodeSet P p0 p1 fc addr valHi valLo cl ch = .ok i) :
    i.frameBytes = some (setBytes p0 p1 fc addr valHi valLo cl ch) := by
  have hflag : valLo = 0x00 ∨ valLo = 0x01 → flagByte (valLo == 0x01) = valLo := by
    rintro (rfl | rfl) <;> rfl
  unfold decodeSet at h
  split_ifs at h with h1 h2 h3 h4 hout hser hpar <;> cases h
  · rfl
  · rfl
  · rfl
  · rfl
  · obtain ⟨rfl, -, rfl, hv⟩ := hout
    exact congrArg (fun v => some (setBytes _ _ _ _ _ v _ _)) (hflag hv)
  · obtain ⟨rfl, -, rfl, hv⟩ := hser
    exact congrArg (fun v => some (setBytes _ _ _ _ _ v _ _)) (hflag hv)
  · obtain ⟨rfl, -, rfl, rfl⟩ := hpar
    rfl

/-- A sequence of the length of the read-all command, with its markers, written out. -/
theorem eq_readall_bytes {f : Bytes} (h : f.length = raLen) (hs : byteAt f 0 = startMarker)
    (he : byteAt f 7 = endMarker) :
    f = [startMarker, byteAt f 1, byteAt f 2, byteAt f 3, byteAt f 4, byteAt f 5, byteAt f 6, endMarker] := by
  conv_lhs => rw [← map_byteAt_range f, h]
  rw [← hs, ← he]
  rfl

/-- A sequence of the length of a set command, with the length byte of one, is the set format of its bytes. -/
theorem eq_setBytes {f : Bytes} (h : f.length = setLen) (hs : byteAt f 0 = startMarker) (hl : byteAt f 5 = lenField)
    (he : byteAt f 10 = endMarker) :
    f = setBytes (byteAt f 1) (byteAt f 2) (byteAt f 3) (byteAt f 4) (byteAt f 6) (byteAt f 7) (byteAt f 8)
      (byteAt f 9) := by
  conv_lhs => rw [← map_byteAt_range f, h]
  rw [setBytes, ← hs, ← hl, ← he]
  rfl

/-- A sequence of the length of a response, with its markers, is the response format of its fields. -/
theorem eq_rspBytes {f : Bytes} (h : f.length = rspLen) (hs : byteAt f 0 = startMarker)
    (he : byteAt f 25 = endMarker) : f = rspBytes (rspFieldsOf f) := by
  conv_lhs => rw [← map_byteAt_range f, h]
  simp only [rspBytes, rspFieldsOf, u16At, hi8_be16, lo8_be16]
  rw [← hs, ← he]
  rfl

/-- Settles O58: by the three lengths of a frame; a frame is its bytes by offset, and the decoder reads them all. -/
theorem decodedFramesEncodeToTheirBytes : Obligations.DecodedFramesEncodeToTheirBytes := by
  intro P f i h
  simp only [decode, decodeFrame] at h
  split_ifs at h with hs he hra hset hl hrsp
  all_goals have hs := not_not.mp hs
  all_goals have he := not_not.mp he
  · cases h
    rw [hra] at he
    exact congrArg some (eq_readall_bytes hra hs he).symm
  · rw [hset] at he
    rw [frameBytes_of_decodeSet h, ← eq_setBytes hset hs (not_not.mp hl) he]
  · cases h
    rw [hrsp] at he
    exact congrArg some (eq_rspBytes hrsp hs he).symm

/-- Settles O59: by evaluation; a bare code word has the default operands. -/
theorem knownWordsDecode : Obligations.KnownWordsDecode :=
  ⟨rfl, rfl, rfl, rfl, rfl, rfl, fun _ => rfl⟩

end Sys2Proof.Machine
end

section
/-! 40_crc.md section 3: the CRC continues over a concatenation (R102), its own bytes take it to zero (R103), and no
change of a single byte goes undetected (R105), because each byte's step is injective in the register and in the
byte. -/

namespace Sys2Proof.Machine

/-- The CRC of a concatenation continues the CRC of its first part (R102). -/
theorem crc16_append (s t : Bytes) : crc16 (s ++ t) (s ++ t).length = t.foldl crcUpdate (crc16 s s.length) := by
  rw [crc16_length, crc16_length, List.foldl_append]

/-- Rounds that find bit 0 clear only shift. -/
theorem crcRounds_eq_shift (k : Nat) (a : U16) (h : ∀ i < k, a.getLsbD i = false) : crcRounds k a = a >>> k := by
  induction k generalizing a with
  | zero => simp [crcRounds]
  | succ k ih =>
    have hround : crcRound a = a >>> 1 := if_neg (by simp only [h 0 k.succ_pos, Bool.false_eq_true, not_false_eq_true])
    have hbits : ∀ i < k, (a >>> 1).getLsbD i = false := fun i hi => by
      simpa [Nat.add_comm] using h (i + 1) (by omega)
    rw [crcRounds, hround, ih _ hbits, ← BitVec.shiftRight_add, Nat.add_comm]

/-- Adding a register's low byte to it leaves the high byte, which eight shifts bring down. -/
theorem crcUpdate_lo8 (c : U16) : crcUpdate c (lo8 c) = zext16 (hi8 c) := by
  have hlow : ∀ i < 8, (c ^^^ zext16 (lo8 c)).getLsbD i = false := fun i hi => by
    have h16 : i < 16 := by omega
    simp [zext16, lo8, hi, h16]
  rw [crcUpdate, crcRounds_eq_shift 8 _ hlow]
  refine BitVec.eq_of_getLsbD_eq fun i hi => ?_
  have h8 : ¬8 + i < 8 := by omega
  by_cases hi' : i < 8
  · simp [zext16, lo8, hi8, hi, hi']
  · simpa [zext16, lo8, hi8, hi, hi'] using BitVec.getLsbD_of_ge c (8 + i) (by omega)

/-- A register that equals its byte goes to zero. -/
theorem crcUpdate_zext16 (b : Byte) : crcUpdate (zext16 b) b = 0 := by
  rw [crcUpdate, BitVec.xor_self]
  rfl

/-- Settles O12: both clauses are folds over what is appended. -/
theorem crcIsIncrementalWithResidueZero : Obligations.CrcIsIncrementalWithResidueZero := by
  refine ⟨crc16_append, fun s c hc => ⟨?_, ?_⟩⟩
  · calc crc16 (s ++ [lo8 c]) (s.length + 1)
        = crcUpdate c (lo8 c) := by simpa [← hc] using crc16_append s [lo8 c]
      _ = BitVec.setWidth 16 (hi8 c) := crcUpdate_lo8 c
  · calc crc16 (s ++ [lo8 c, hi8 c]) (s.length + 2)
        = crcUpdate (crcUpdate c (lo8 c)) (hi8 c) := by simpa [← hc] using crc16_append s [lo8 c, hi8 c]
      _ = crcUpdate (zext16 (hi8 c)) (hi8 c) := by rw [crcUpdate_lo8]
      _ = 0 := crcUpdate_zext16 (hi8 c)

/-- A round's bits: each is the next higher one, the feedback constant added when bit 0 was set. -/
theorem getLsbD_crcRound (a : U16) (i : Nat) :
    (crcRound a).getLsbD i = (a.getLsbD (i + 1) ^^ (a[0] && crcPoly.getLsbD i)) := by
  rw [crcRound_eq_ite_getElem]
  cases h : a[0] <;> simp [crcPoly, Nat.add_comm]

/-- Bit 15 of a round is the bit 0 it shifted out, because the feedback constant has bit 15 set; so nothing is lost. -/
theorem crcRound_injective : Function.Injective crcRound := by
  intro a b h
  have hbit (i : Nat) : (a.getLsbD (i + 1) ^^ (a[0] && crcPoly.getLsbD i)) =
      (b.getLsbD (i + 1) ^^ (b[0] && crcPoly.getLsbD i)) := by
    rw [← getLsbD_crcRound, ← getLsbD_crcRound, h]
  have h0 : a[0] = b[0] := by
    have hpoly : crcPoly[15] = true := by decide
    simpa [hpoly] using hbit 15
  refine BitVec.eq_of_getLsbD_eq fun i _ => ?_
  cases i with
  | zero => simpa using h0
  | succ i => simpa [h0] using hbit i

theorem crcRounds_injective (k : Nat) : Function.Injective (crcRounds k) := by
  rw [funext (crcRounds_eq_iterate k)]
  exact crcRound_injective.iterate k

theorem zext16_injective : Function.Injective zext16 := fun b c h => by
  simpa [zext16] using congrArg (BitVec.setWidth 8) h

/-- The byte's step, in the register. -/
theorem crcUpdate_injective (b : Byte) : Function.Injective (crcUpdate · b) := fun _ _ h =>
  (BitVec.xor_left_inj _).mp (crcRounds_injective 8 h)

/-- The byte's step, in the byte. -/
theorem crcUpdate_byte_injective (a : U16) : Function.Injective (crcUpdate a) := fun _ _ h =>
  zext16_injective ((BitVec.xor_right_inj _).mp (crcRounds_injective 8 h))

theorem foldl_crcUpdate_injective (s : Bytes) : Function.Injective (s.foldl crcUpdate) := by
  induction s with
  | nil => exact Function.injective_id
  | cons b s ih => exact ih.comp (crcUpdate_injective b)

/-- Another byte in the place of one changes the CRC: the registers part there and never meet again. -/
theorem foldl_crcUpdate_set_ne {s : Bytes} {i : Nat} {b : Byte} (a : U16) (hi : i < s.length) (hb : b ≠ byteAt s i) :
    (s.set i b).foldl crcUpdate a ≠ s.foldl crcUpdate a := by
  induction s generalizing i a with
  | nil => exact absurd hi (Nat.not_lt_zero i)
  | cons x s ih =>
    cases i with
    | zero => exact fun h => hb (crcUpdate_byte_injective a (foldl_crcUpdate_injective s h))
    | succ i => exact ih (crcUpdate a x) (Nat.lt_of_succ_lt_succ hi) hb

theorem crc16_set_ne {f : Bytes} {n i : Nat} {b : Byte} (hi : i < n) (hn : n ≤ f.length) (hb : b ≠ byteAt f i) :
    crc16 (f.set i b) n ≠ crc16 f n := by
  have hlen : i < (f.take n).length := by simp; omega
  rw [crc16, List.take_set]
  refine foldl_crcUpdate_set_ne crcInit hlen ?_
  simpa [byteAt, hi] using hb

/-- A byte that CRC16 does not reach does not matter. -/
theorem crc16_set_of_le {f : Bytes} {n i : Nat} (b : Byte) (hi : n ≤ i) : crc16 (f.set i b) n = crc16 f n := by
  rw [crc16, List.take_set, List.set_eq_of_length_le (by simp; omega), crc16]

theorem byteAt_set_self {f : Bytes} {i : Nat} (b : Byte) (hi : i < f.length) : byteAt (f.set i b) i = b := by
  simp [byteAt, hi]

theorem byteAt_set_ne {f : Bytes} {i j : Nat} (b : Byte) (h : i ≠ j) : byteAt (f.set i b) j = byteAt f j := by
  simp [byteAt, h]

/-- No other byte, wherever it stands, leaves a valid frame valid (R105): a marker is lost, the embedded CRC changes and
the computed one does not, or the computed one changes and the embedded one does not. -/
theorem validateFrame_set {f : Bytes} {i : Nat} {b : Byte} (hf : validateFrame f = true) (hi : i < f.length)
    (hb : b ≠ byteAt f i) : validateFrame (f.set i b) = false := by
  rw [Bool.eq_false_iff]
  intro hg
  obtain ⟨hlen, hstart, hend, hcrc⟩ := validateFrame_iff.mp hf
  obtain ⟨-, hstart', hend', hcrc'⟩ := validateFrame_iff.mp hg
  have hne : byteAt (f.set i b) i ≠ byteAt f i := by rwa [byteAt_set_self b hi]
  rw [List.length_set] at hend' hcrc'
  rw [embeddedCrc, List.length_set] at hcrc'
  rw [minValidLen] at hlen
  by_cases h0 : i = 0
  · subst h0
    exact hne (hstart'.trans hstart.symm)
  by_cases h1 : i = f.length - 1
  · rw [← h1] at hend hend'
    exact hne (hend'.trans hend.symm)
  by_cases hbody : i < f.length - 3
  · rw [byteAt_set_ne b (by omega), byteAt_set_ne b (by omega), ← embeddedCrc, hcrc] at hcrc'
    exact crc16_set_ne hbody (by omega) hb hcrc'.symm
  · rw [crc16_set_of_le b (by omega), ← hcrc, embeddedCrc, be16_inj] at hcrc'
    obtain ⟨hhi, hlo⟩ := hcrc'
    obtain h2 | h3 : i = f.length - 2 ∨ i = f.length - 3 := by omega
    · exact hne (by rwa [← h2] at hhi)
    · exact hne (by rwa [← h3] at hlo)

/-- Settles O13: VALIDATE returns the verdict on the changed frame. -/
theorem singleByteChangeIsDetected : Obligations.SingleByteChangeIsDetected := by
  intro s f i b hrun hf hi hb
  exact exec_validate_of_eq hrun (validateFrame_set hf hi hb)

end Sys2Proof.Machine
end

section
/-! 41_encode.md section 1: `to_raw` (R111) is exact scaling, on integers and on rationals. -/

namespace Sys2Proof.Machine

theorem ten_pow_pos (e : Nat) : (0 : Int) < 10 ^ e := pow_pos (by decide) e

/-- The precision test is on the value (D8). -/
theorem toRaw_of_not_dvd {v : Decimal} {k : Nat} (h : ¬(10 : Int) ^ v.e ∣ v.m * 10 ^ k) :
    toRaw v k = .error .precision :=
  if_pos (mt Int.dvd_of_emod_eq_zero h)

/-- The range test is on the scaled integer, once the value has one (D9). -/
theorem toRaw_of_eq_mul {v : Decimal} {k : Nat} {z : Int} (h : v.m * 10 ^ k = z * 10 ^ v.e) :
    toRaw v k = if z < 0 ∨ z > valMax then .error .range else .ok (BitVec.ofInt 16 z) := by
  have hd : (10 : Int) ^ v.e ≠ 0 := (ten_pow_pos v.e).ne'
  simp [toRaw, h, Int.mul_ediv_cancel z hd]

theorem toRaw_of_out_of_range {v : Decimal} {k : Nat} {z : Int} (h : v.m * 10 ^ k = z * 10 ^ v.e)
    (hz : z < 0 ∨ valMax < z) : toRaw v k = .error .range := by
  rw [toRaw_of_eq_mul h, if_pos hz]

theorem toRaw_of_raw {v : Decimal} {k : Nat} {raw : U16} (h : v.m * 10 ^ k = raw.toNat * 10 ^ v.e) :
    toRaw v k = .ok raw := by
  have hraw := raw.isLt
  rw [toRaw_of_eq_mul h, if_neg (by simp only [valMax]; omega)]
  exact congrArg _ (by simp)

/-- The three cases of `to_raw`: the scaled value is no integer, an integer outside the range, or a `u16`. -/
theorem toRaw_cases (v : Decimal) (k : Nat) :
    (toRaw v k = .error .precision ∧ ¬(10 : Int) ^ v.e ∣ v.m * 10 ^ k) ∨
    (toRaw v k = .error .range ∧ ∃ z : Int, v.m * 10 ^ k = z * 10 ^ v.e ∧ (z < 0 ∨ valMax < z)) ∨
    ∃ raw : U16, toRaw v k = .ok raw ∧ v.m * 10 ^ k = (raw.toNat : Int) * 10 ^ v.e := by
  by_cases hd : (10 : Int) ^ v.e ∣ v.m * 10 ^ k
  · obtain ⟨z, hz⟩ := hd
    rw [mul_comm _ z] at hz
    by_cases hr : z < 0 ∨ valMax < z
    · exact .inr (.inl ⟨toRaw_of_out_of_range hz hr, z, hz, hr⟩)
    · have hnat : ((BitVec.ofNat 16 z.toNat).toNat : Int) = z := by
        simp only [valMax] at hr
        rw [BitVec.toNat_ofNat]
        omega
      have hraw : v.m * 10 ^ k = ((BitVec.ofNat 16 z.toNat).toNat : Int) * 10 ^ v.e := by rw [hnat, hz]
      exact .inr (.inr ⟨_, toRaw_of_raw hraw, hraw⟩)
  · exact .inl ⟨toRaw_of_not_dvd hd, hd⟩

/-- The integer equation of scaling is the rational one. -/
theorem scaled_eq_iff (v : Decimal) (k : Nat) (z : Int) :
    decimalValue v * 10 ^ k = z ↔ v.m * 10 ^ k = z * 10 ^ v.e := by
  have hd : (10 : ℚ) ^ v.e ≠ 0 := pow_ne_zero _ (by norm_num)
  rw [decimalValue, div_mul_eq_mul_div, div_eq_iff hd]
  exact_mod_cast Iff.rfl

/-- `to_raw` accepts exactly the values whose scaled rational is a `u16`. -/
theorem toRaw_eq_ok_iff (v : Decimal) (k : Nat) (raw : U16) :
    toRaw v k = .ok raw ↔ v.m * 10 ^ k = (raw.toNat : Int) * 10 ^ v.e := by
  refine ⟨fun h => ?_, toRaw_of_raw⟩
  obtain ⟨he, -⟩ | ⟨he, -⟩ | ⟨raw', hok, hraw⟩ := toRaw_cases v k
  · simp [he] at h
  · simp [he] at h
  · obtain rfl : raw' = raw := by simpa [hok] using h
    exact hraw

/-- Equal values scale to the same integers. -/
theorem scaled_eq_of_decimalValue_eq {v w : Decimal} {k : Nat} {z : Int} (h : decimalValue v = decimalValue w)
    (hz : v.m * 10 ^ k = z * 10 ^ v.e) : w.m * 10 ^ k = z * 10 ^ w.e := by
  rw [← scaled_eq_iff, ← h, scaled_eq_iff, hz]

/-- Settles O20: each case of `to_raw` is one of the scaled rational. -/
theorem toRawIsExactScaling : Obligations.ToRawIsExactScaling := by
  refine ⟨fun v k raw => ?_, fun v w k h => ?_⟩
  · rw [toRaw_eq_ok_iff, ← scaled_eq_iff]
    norm_cast
  · obtain ⟨he, hd⟩ | ⟨he, z, hz, hr⟩ | ⟨raw, hok, hraw⟩ := toRaw_cases v k
    · rw [he, toRaw_of_not_dvd]
      rintro ⟨z, hz⟩
      rw [mul_comm _ z] at hz
      exact hd (Dvd.intro_left z (scaled_eq_of_decimalValue_eq h.symm hz).symm)
    · rw [he, toRaw_of_out_of_range (scaled_eq_of_decimalValue_eq h hz) hr]
    · rw [hok, toRaw_of_raw (scaled_eq_of_decimalValue_eq h hraw)]

end Sys2Proof.Machine
end

section
/-! 41_encode.md section 2: the value commands (R113, R114), by the outcome of `to_raw`; the other commands of the
encoder (R112, R119, R120); the addresses of the value commands (R8). -/

namespace Sys2Proof.Machine

/-- A value command with a channel and a decimal of the domain emits the frame of the raw value. -/
theorem valueCommand_of_ok {ch : Nat} {v : Decimal} {k : Nat} {raw : U16} (a1 a2 : Byte) (s : State)
    (hch : ch = 1 ∨ ch = 2) (h : toRaw v k = .ok raw) : valueCommand ch v k a1 a2 s =
      record (.frame (setFrame s.params s.params.fcSet (if ch = 1 then a1 else a2) (hi8 raw) (lo8 raw))) s := by
  simp [valueCommand, hch, h]

theorem valueCommand_of_error {ch : Nat} {v : Decimal} {k : Nat} {e : EncodingReason} (a1 a2 : Byte) (s : State)
    (hch : ch = 1 ∨ ch = 2) (h : toRaw v k = .error e) :
    valueCommand ch v k a1 a2 s = record (.encodingError e) s := by
  simp [valueCommand, hch, h]

/-- What a running block does with a value command of scale `10 ^ k`, exactly. -/
theorem whenRunning_valueCommand {s : State} (hrun : s.run = .running) {ch : Nat} (hch : ch = 1 ∨ ch = 2) (v : Decimal)
    (k : Nat) (a1 a2 : Byte) :
    (∀ raw : U16, v.m * 10 ^ k = (raw.toNat : Int) * 10 ^ v.e →
      whenRunning s (valueCommand ch v k a1 a2 s) = .next { s with results := s.results ++ [.frame (mkframe
        [0xF7, s.params.prefix0, s.params.prefix1, s.params.fcSet, if ch = 1 then a1 else a2, 0x01,
          hi8 raw, lo8 raw])] }) ∧
    (¬((10 : Int) ^ v.e ∣ v.m * 10 ^ k) →
      whenRunning s (valueCommand ch v k a1 a2 s) =
        .next { s with results := s.results ++ [.encodingError .precision] }) ∧
    ((10 : Int) ^ v.e ∣ v.m * 10 ^ k → v.m * 10 ^ k < 0 ∨ 65535 * (10 : Int) ^ v.e < v.m * 10 ^ k →
      whenRunning s (valueCommand ch v k a1 a2 s) =
        .next { s with results := s.results ++ [.encodingError .range] }) := by
  rw [whenRunning_of_running hrun]
  refine ⟨fun raw h => ?_, fun h => ?_, fun ⟨z, hz⟩ hr => ?_⟩
  · rw [valueCommand_of_ok a1 a2 s hch (toRaw_of_raw h)]
    rfl
  · rw [valueCommand_of_error a1 a2 s hch (toRaw_of_not_dvd h)]
    rfl
  · rw [mul_comm _ z] at hz
    have hd := ten_pow_pos v.e
    have hr : z < 0 ∨ valMax < z := by
      rw [hz] at hr
      exact hr.imp (neg_of_mul_neg_left · hd.le) (lt_of_mul_lt_mul_right · hd.le)
    rw [valueCommand_of_error a1 a2 s hch (toRaw_of_out_of_range hz hr)]
    rfl

/-- Settles O17: the value command at scale 2 and the voltage addresses. -/
theorem setVoltageScalesExactly : Obligations.SetVoltageScalesExactly :=
  ⟨fun _ _ _ => rfl, fun s _ v hrun hch =>
    whenRunning_valueCommand hrun hch v scaleV s.params.addrV1 s.params.addrV2⟩

/-- Settles O18: the value command at scale 3 and the current addresses. -/
theorem setCurrentScalesExactly : Obligations.SetCurrentScalesExactly :=
  ⟨fun _ _ _ => rfl, fun s _ v hrun hch =>
    whenRunning_valueCommand hrun hch v scaleI s.params.addrI1 s.params.addrI2⟩

/-- Settles O19: the channel is tested before the decimal. -/
theorem badChannelFaults : Obligations.BadChannelFaults := by
  intro s ch v hrun h1 h2
  have hfault (k : Nat) (a1 a2 : Byte) : valueCommand ch v k a1 a2 s = enterFault .illegalOperand s :=
    if_neg (not_or.mpr ⟨h1, h2⟩)
  simp only [exec, execEncSetv, execEncSeti, hfault, whenRunning_of_running hrun]
  exact ⟨rfl, rfl⟩

/-- Settles O16: the frame is built of the five bytes. -/
theorem readallEmitsItsEightBytes : Obligations.ReadallEmitsItsEightBytes :=
  ⟨fun _ => rfl, fun _ hrun => whenRunning_of_running hrun⟩

/-- Settles O15: the two layouts by definition; 2.53 V is the raw value 253, whose low byte is the end marker. -/
theorem encoderCopiesEveryByteUnescaped : Obligations.EncoderCopiesEveryByteUnescaped := by
  refine ⟨fun _ _ _ _ _ => rfl, fun _ => rfl, fun s hrun => ?_⟩
  obtain ⟨hframe, -, -⟩ := setVoltageScalesExactly.2 s 1 ⟨253, 2⟩ hrun (.inl rfl)
  exact ⟨_, hframe 253 rfl, rfl⟩

/-- Settles O24: the two "true" commands differ in the value byte alone before the CRC. -/
theorem serialAndParallelCommandsCompared : Obligations.SerialAndParallelCommandsCompared := by
  intro s hrun
  obtain ⟨-, hserial, -⟩ := setSerialEmitsItsFrame
  obtain ⟨-, hparallel⟩ := setParallelEmitsItsFrame
  refine ⟨_, _, _, hserial s false hrun, hparallel s false hrun, hserial s true hrun, hparallel s true hrun,
    fun h => ?_, rfl, rfl, fun k hk => ?_⟩
  · have h7 : some (0x01 : Byte) = some 0x02 := congrArg (·[7]?) h
    exact absurd h7 (by decide)
  · interval_cases k <;> rfl

/-- A value command's frame has its address at offset 4, and its channel is 1 or 2 (R67). -/
theorem address_of_encSetv {s : State} {ch : Nat} {v : Decimal} {f : Bytes}
    (h : exec (.encSetv ch v) s = .next { s with results := s.results ++ [.frame f] }) :
    (ch = 1 ∧ f[4]? = some s.params.addrV1) ∨ (ch = 2 ∧ f[4]? = some s.params.addrV2) := by
  obtain ⟨-, _, hends, -⟩ := ends_of_exec_result h rfl
  cases hends with
  | voltage hch => obtain rfl | rfl := hch <;> simp [setFrame, mkframe]

theorem address_of_encSeti {s : State} {ch : Nat} {v : Decimal} {f : Bytes}
    (h : exec (.encSeti ch v) s = .next { s with results := s.results ++ [.frame f] }) :
    (ch = 1 ∧ f[4]? = some s.params.addrI1) ∨ (ch = 2 ∧ f[4]? = some s.params.addrI2) := by
  obtain ⟨-, _, hends, -⟩ := ends_of_exec_result h rfl
  cases hends with
  | current hch => obtain rfl | rfl := hch <;> simp [setFrame, mkframe]

/-- Settles O25: the four addresses at offset 4 are pairwise distinct. -/
theorem addressTellsTheValueCommands : Obligations.AddressTellsTheValueCommands := by
  intro s ch ch' v v' f g hdistinct
  obtain ⟨h12, h13, h14, h23, h24, h34⟩ := distinct_iff.mp hdistinct
  have hsome {a b : Byte} (h : a ≠ b) : some a ≠ some b := (Option.some_injective _).ne h
  refine ⟨fun hf hg => ?quantity, fun hf hg hne => ?voltages, fun hf hg hne => ?currents⟩
  case quantity =>
    rcases address_of_encSetv hf, address_of_encSeti hg with ⟨⟨-, haf⟩ | ⟨-, haf⟩, ⟨-, hag⟩ | ⟨-, hag⟩⟩ <;> rw [haf, hag]
    · exact hsome h13
    · exact hsome h14
    · exact hsome h23
    · exact hsome h24
  case voltages =>
    rcases address_of_encSetv hf, address_of_encSetv hg with ⟨⟨rfl, haf⟩ | ⟨rfl, haf⟩, ⟨rfl, hag⟩ | ⟨rfl, hag⟩⟩ <;>
      rw [haf, hag]
    · exact absurd rfl hne
    · exact hsome h12
    · exact hsome h12.symm
    · exact absurd rfl hne
  case currents =>
    rcases address_of_encSeti hf, address_of_encSeti hg with ⟨⟨rfl, haf⟩ | ⟨rfl, haf⟩, ⟨rfl, hag⟩ | ⟨rfl, hag⟩⟩ <;>
      rw [haf, hag]
    · exact absurd rfl hne
    · exact hsome h34
    · exact hsome h34.symm
    · exact absurd rfl hne

end Sys2Proof.Machine
end

section
/-! 42_decode.md section 3 and 60_exceptions.md section 1: what PARSE returns (R143 to R145), and where a ParseError
comes from (R202). -/

namespace Sys2Proof.Machine

/-- PARSE of a running block returns the error of its tests, and changes nothing else. -/
theorem exec_parse_of_error {s : State} {f : Bytes} {e : ParseReason} (hrun : s.run = .running)
    (he : parseFrame f = .error e) : exec (.parse f) s = .next (record (.parseError e) s) := by
  simp [exec, execParse, hrun, he]

/-- A sequence of response length is not empty. -/
theorem ne_nil_of_rspLen_le {f : Bytes} (h : rspLen ≤ f.length) : f ≠ [] := by
  rintro rfl
  exact absurd h (by decide)

/-- The first test of PARSE is the length (R143). -/
theorem parseFrame_of_short {f : Bytes} (h : f.length < rspLen) : parseFrame f = .error .short := if_pos h

/-- The second is the start marker. -/
theorem parseFrame_of_no_start {f : Bytes} (h : rspLen ≤ f.length) (hs : f.head? ≠ some startMarker) :
    parseFrame f = .error .start := by
  rw [Ne, ← byteAt_zero_eq_iff_head? _ (ne_nil_of_rspLen_le h)] at hs
  rw [parseFrame, if_neg h.not_gt, if_pos hs]

/-- The third is the end marker. -/
theorem parseFrame_of_no_end {f : Bytes} (h : rspLen ≤ f.length) (hs : f.head? = some startMarker)
    (he : f.getLast? ≠ some endMarker) : parseFrame f = .error .noEnd := by
  rw [← byteAt_zero_eq_iff_head? _ (ne_nil_of_rspLen_le h)] at hs
  rw [Ne, ← byteAt_last_eq_iff_getLast? _ (ne_nil_of_rspLen_le h)] at he
  rw [parseFrame, if_neg h.not_gt, if_neg (not_not.mpr hs), if_pos he]

/-- A sequence that passes all three is decoded. -/
theorem parseFrame_of_ends {f : Bytes} (h : rspLen ≤ f.length) (hs : f.head? = some startMarker)
    (he : f.getLast? = some endMarker) : parseFrame f = .ok (snapshotOf f) := by
  rw [← byteAt_zero_eq_iff_head? _ (ne_nil_of_rspLen_le h)] at hs
  rw [← byteAt_last_eq_iff_getLast? _ (ne_nil_of_rspLen_le h)] at he
  exact parseFrame_eq_ok_iff.mpr ⟨h, hs, he, rfl⟩

/-- Settles O30: one clause for each test of PARSE, and one for a sequence that passes all three. -/
theorem parseDecodesOrReportsInOrder : Obligations.ParseDecodesOrReportsInOrder :=
  ⟨fun _ _ => rfl, fun _ _ hrun =>
    ⟨fun h => exec_parse_of_error hrun (parseFrame_of_short h),
      fun h hs => exec_parse_of_error hrun (parseFrame_of_no_start h hs),
      fun h hs he => exec_parse_of_error hrun (parseFrame_of_no_end h hs he),
      fun h hs he => exec_parse_of_ok hrun (parseFrame_of_ends h hs he)⟩⟩

/-- A valid sequence of at least 26 bytes passes the tests of PARSE (R145). -/
theorem parseFrame_of_valid {f : Bytes} (hf : validateFrame f = true) (hlen : rspLen ≤ f.length) :
    parseFrame f = .ok (snapshotOf f) := by
  obtain ⟨-, hs, he, -⟩ := validateFrame_iff_ends.mp hf
  exact parseFrame_of_ends hlen hs he

/-- Settles O32: PARSE accepts the frame, and the scales are those of the offsets. -/
theorem parseIsTotalOnValidFrames : Obligations.ParseIsTotalOnValidFrames :=
  fun _ f hrun hf hlen => ⟨snapshotOf f, exec_parse_of_ok hrun (parseFrame_of_valid hf hlen), scalesFit_snapshotOf f⟩

/-- Settles O35: only PARSE ends with the error, and a sequence that passes its tests ends otherwise. -/
theorem parseErrorOnlyFromParse : Obligations.ParseErrorOnlyFromParse := by
  refine ⟨fun i s t e h ht => ?_, fun c hc hshape => ?_⟩
  · obtain ⟨-, a', hends, rfl⟩ := ends_of_exec_result h ht
    cases hends with
    | @notParsed f _ hp =>
      refine ⟨rfl, f, rfl, ?_⟩
      by_contra! hall
      obtain ⟨hlen, hs, he⟩ := hall
      rw [parseFrame_of_ends hlen hs he] at hp
      cases hp
  · have hlen : c.length = rspLen := by simpa [isReadallShape] using hshape
    exact ⟨_, parseFrame_of_valid hc hlen.ge⟩

/-- A snapshot is made of seven status bits and the bytes 7 to 22 (R141). -/
theorem snapshotOf_congr {f g : Bytes}
    (hst2 : ∀ b ∈ [0, 1, 2, 3, 5], (byteAt f 5).getLsbD b = (byteAt g 5).getLsbD b)
    (hst1 : ∀ b ∈ [0, 1], (byteAt f 6).getLsbD b = (byteAt g 6).getLsbD b)
    (hvalues : ∀ k, 7 ≤ k → k ≤ 22 → byteAt f k = byteAt g k) : snapshotOf f = snapshotOf g := by
  have hvoltage (o : Nat) (h7 : 7 ≤ o) (h21 : o ≤ 21) : voltageAt f o = voltageAt g o := by
    simp only [voltageAt, u16At, hvalues o (by omega) (by omega), hvalues (o + 1) (by omega) (by omega)]
  have hcurrent (o : Nat) (h7 : 7 ≤ o) (h21 : o ≤ 21) : currentAt f o = currentAt g o := by
    simp only [currentAt, u16At, hvalues o (by omega) (by omega), hvalues (o + 1) (by omega) (by omega)]
  simp only [List.forall_mem_cons] at hst2 hst1
  obtain ⟨hcv2, hcc2, hser, hpar, hout, -⟩ := hst2
  obtain ⟨hcv1, hcc1, -⟩ := hst1
  simp (disch := decide) only [snapshotOf, hvoltage, hcurrent, constantVoltage, constantCurrent, serialFlag,
    parallelFlag, outputFlag, bitOf, hcv2, hcc2, hser, hpar, hout, hcv1, hcc1]

/-- Bytes of one offset are equal when the list entries are. -/
theorem byteAt_congr {f g : Bytes} {i j : Nat} (h : f[i]? = g[j]?) : byteAt f i = byteAt g j := by
  simp [byteAt, List.getD_eq_getElem?_getD, h]

/-- Settles O31: the tests of PARSE read the length and the two ends, the snapshot the rest. -/
theorem parseIgnoresWhatItDoesNotRead : Obligations.ParseIgnoresWhatItDoesNotRead := by
  intro s f g hlen hfirst hlast hst2 hst1 hvalues
  have hlast : byteAt f (f.length - 1) = byteAt g (g.length - 1) := by
    refine byteAt_congr ?_
    rw [← List.getLast?_eq_getElem?, ← List.getLast?_eq_getElem?, hlast]
  have hparse : parseFrame f = parseFrame g := by
    rw [parseFrame, parseFrame, byteAt_congr hfirst, hlast, hlen,
      snapshotOf_congr hst2 hst1 fun k h7 h22 => byteAt_congr (hvalues k h7 h22)]
  rw [exec, exec, execParse, execParse, hparse]

end Sys2Proof.Machine
end

section
/-! The remaining operations and values: 10_state.md section 7, 40_crc.md section 2, 70_reset_and_hazards.md section 1,
60_exceptions.md section 1. -/

namespace Sys2Proof.Machine

/-- Settles O1: the fields of `State.instantiate`, and the capacity of `Config.params`. -/
theorem resetStateIsEmptyAndRunning : Obligations.ResetStateIsEmptyAndRunning :=
  ⟨fun _ => rfl, instantiate_acc _, instantiate_run _, instantiate_pending _, instantiate_results _, rfl⟩

/-- Settles O2: RESET records `none` on an emptied accumulator. -/
theorem resetEmptiesTheAccumulator : Obligations.ResetEmptiesTheAccumulator :=
  ⟨fun _ => rfl, fun _ hrun => whenRunning_of_running hrun⟩

/-- Settles O10: CRC16 records the fold over the first bytes. -/
theorem crc16FoldsTheFirstBytes : Obligations.Crc16FoldsTheFirstBytes := by
  refine ⟨fun _ _ _ => rfl, fun s b n hrun hn => ?_, fun _ => rfl, crc16_append_left⟩
  rw [exec, execCrc16, if_pos hn]
  exact whenRunning_of_running hrun

/-- Settles O11: the length is tested first. -/
theorem crc16BeyondTheBytesFaults : Obligations.Crc16BeyondTheBytesFaults := by
  intro s b n hrun hn
  rw [exec, execCrc16, if_neg hn.not_ge]
  exact whenRunning_of_running hrun

/-- Settles O60: by the cases of a result; every `ok` has the code 0. -/
theorem outcomeCodes : Obligations.OutcomeCodes := by
  refine ⟨rfl, rfl, rfl, rfl, rfl, rfl, rfl, rfl, rfl, fun r henc hparse hfault => ?_⟩
  cases r with
  | encodingError e => exact absurd rfl (henc e)
  | parseError e => exact absurd rfl (hparse e)
  | fault f => exact absurd rfl (hfault f)
  | _ => rfl

end Sys2Proof.Machine
end

section
/-! 43_extract.md section 2: the greedy delimiting `G` (R174) by what X.POP finds. `delimit` and `undelimited` are
computed at offsets of the whole stream; the lemmas here turn them into a recursion on the pops, and split them at a
chunk boundary. -/

namespace Sys2Proof.Machine

/-- A search that starts after `pre` does not see it. -/
theorem findFrom_append (pre s : Bytes) (p : Nat) (b : Byte) :
    findFrom (pre ++ s) (pre.length + p) b = (findFrom s p b).map (pre.length + ·) := by
  rw [findFrom, findFrom, List.drop_append, List.drop_eq_nil_of_le (by omega), List.nil_append,
    Nat.add_sub_cancel_left, Option.map_map]
  exact congrArg (Option.map · _) (funext fun k => by simp only [Function.comp_apply]; omega)

theorem slice_append (pre s : Bytes) (i j : Nat) :
    slice (pre ++ s) (pre.length + i) (pre.length + j) = slice s i j := by
  simp [slice, List.take_append, List.drop_append]

/-- The delimiting from an offset after `pre` does not depend on it. -/
theorem delimitFrom_append (pre s : Bytes) (k p : Nat) :
    delimitFrom (pre ++ s) k (pre.length + p) = delimitFrom s k p := by
  induction k generalizing p with
  | zero => rfl
  | succ k ih =>
    rw [delimitFrom, delimitFrom, findFrom_append]
    cases findFrom s p startMarker with
    | none => rfl
    | some i =>
      simp only [Option.map_some, Nat.add_assoc, findFrom_append]
      cases findFrom s (i + 1) endMarker with
      | none => simp [List.drop_append]
      | some j => simp only [Option.map_some, Nat.add_assoc, slice_append, ih]

theorem findFrom_zero (s : Bytes) (b : Byte) : findFrom s 0 b = find s b := by simp [findFrom]

/-- One round of `G` on a stream in which nothing begins. -/
theorem delimitFrom_no_start {s : Bytes} (k : Nat) (hs : startMarker ∉ s) : delimitFrom s (k + 1) 0 = ([], []) := by
  rw [delimitFrom, findFrom_zero, find_of_not_mem hs]

/-- One round of `G` on a stream in which a frame begins and does not end. -/
theorem delimitFrom_no_end {g b : Bytes} (k : Nat) (hg : startMarker ∉ g) (hb : endMarker ∉ b) :
    delimitFrom (g ++ startMarker :: b) (k + 1) 0 = ([], startMarker :: b) := by
  have he : findFrom (g ++ startMarker :: b) (g.length + 1) endMarker = none := by
    simp [findFrom, find_of_not_mem hb]
  simp only [delimitFrom, findFrom_zero, find_append_cons hg, he, List.drop_left]

/-- One round of `G` on a stream with a frame: the frame, then the rounds of what follows it. -/
theorem delimitFrom_frame {g b r : Bytes} (k : Nat) (hg : startMarker ∉ g) (hb : endMarker ∉ b) :
    delimitFrom (g ++ startMarker :: (b ++ endMarker :: r)) (k + 1) 0 =
      ((startMarker :: (b ++ [endMarker])) :: (delimitFrom r k 0).1, (delimitFrom r k 0).2) := by
  have he : findFrom (g ++ startMarker :: (b ++ endMarker :: r)) (g.length + 1) endMarker =
      some (g.length + (b.length + 1)) := by
    rw [findFrom_append, findFrom, List.drop_one, List.tail_cons, find_append_cons hb]
    rfl
  have hslice : slice (g ++ startMarker :: (b ++ endMarker :: r)) g.length (g.length + (b.length + 1) + 1) =
      startMarker :: (b ++ [endMarker]) :=
    (slice_append g _ 0 (b.length + 1 + 1)).trans (slice_through (startMarker :: b) r endMarker)
  have hrest : delimitFrom (g ++ startMarker :: (b ++ endMarker :: r)) k (g.length + (b.length + 1) + 1) =
      delimitFrom r k 0 := by
    simpa [Nat.add_assoc] using delimitFrom_append (g ++ startMarker :: (b ++ [endMarker])) r k 0
  simp only [delimitFrom, findFrom_zero, find_append_cons hg, he, hslice, hrest]

/-- One round of `G` finds nothing where X.POP finds nothing. -/
theorem delimitFrom_of_popAcc_none {s rest : Bytes} (k : Nat) (h : popAcc s = (none, rest)) :
    delimitFrom s (k + 1) 0 = ([], rest) := by
  obtain hs | ⟨g, b, rfl, hg, hb⟩ | ⟨g, b, r, rfl, hg, hb⟩ := acc_cases s
  · obtain rfl : [] = rest := by simpa [popAcc_no_start hs] using h
    exact delimitFrom_no_start k hs
  · obtain rfl : startMarker :: b = rest := by simpa [popAcc_no_end hg hb] using h
    exact delimitFrom_no_end k hg hb
  · simp [popAcc_frame hg hb] at h

/-- One round of `G` finds the candidate that X.POP finds. -/
theorem delimitFrom_of_popAcc_some {s c rest : Bytes} (k : Nat) (h : popAcc s = (some c, rest)) :
    delimitFrom s (k + 1) 0 = (c :: (delimitFrom rest k 0).1, (delimitFrom rest k 0).2) := by
  obtain hs | ⟨g, b, rfl, hg, hb⟩ | ⟨g, b, r, rfl, hg, hb⟩ := acc_cases s
  · simp [popAcc_no_start hs] at h
  · simp [popAcc_no_end hg hb] at h
  · obtain ⟨rfl, rfl⟩ : startMarker :: (b ++ [endMarker]) = c ∧ r = rest := by simpa [popAcc_frame hg hb] using h
    exact delimitFrom_frame k hg hb

/-- What holds when X.POP finds nothing, and holds before a pop when it holds after it, holds of every accumulator:
each candidate takes bytes away (R194). -/
theorem popAcc_induction {motive : Bytes → Prop} (none : ∀ s rest, popAcc s = (none, rest) → motive s)
    (some : ∀ s c rest, popAcc s = (some c, rest) → motive rest → motive s) (s : Bytes) : motive s := by
  rcases h : popAcc s with ⟨_ | c, rest⟩
  · exact none s rest h
  · have hshort := popAcc_shortens h
    exact some s c rest h (popAcc_induction none some rest)
termination_by s.length

/-- More rounds than bytes change nothing. -/
theorem delimitFrom_enough (s : Bytes) : ∀ k, s.length < k → delimitFrom s k 0 = (delimit s, undelimited s) := by
  suffices h : ∀ k m, s.length < k → s.length < m → delimitFrom s k 0 = delimitFrom s m 0 from
    fun k hk => h k (s.length + 1) hk (Nat.lt_succ_self _)
  induction s using popAcc_induction with
  | none s rest h =>
    intro k m hk hm
    obtain ⟨k, rfl⟩ := Nat.exists_eq_succ_of_ne_zero (Nat.ne_zero_of_lt hk)
    obtain ⟨m, rfl⟩ := Nat.exists_eq_succ_of_ne_zero (Nat.ne_zero_of_lt hm)
    rw [delimitFrom_of_popAcc_none k h, delimitFrom_of_popAcc_none m h]
  | some s c rest h ih =>
    intro k m hk hm
    have hshort := popAcc_shortens h
    obtain ⟨k, rfl⟩ := Nat.exists_eq_succ_of_ne_zero (Nat.ne_zero_of_lt hk)
    obtain ⟨m, rfl⟩ := Nat.exists_eq_succ_of_ne_zero (Nat.ne_zero_of_lt hm)
    rw [delimitFrom_of_popAcc_some k h, delimitFrom_of_popAcc_some m h, ih k m (by omega) (by omega)]

/-- `G` by the first pop: nothing found. -/
theorem delimit_of_popAcc_none {s rest : Bytes} (h : popAcc s = (none, rest)) :
    delimit s = [] ∧ undelimited s = rest := by
  rw [delimit, undelimited, delimitFrom_of_popAcc_none _ h]
  exact ⟨rfl, rfl⟩

/-- `G` by the first pop: a candidate, then `G` of what is left. -/
theorem delimit_of_popAcc_some {s c rest : Bytes} (h : popAcc s = (some c, rest)) :
    delimit s = c :: delimit rest ∧ undelimited s = undelimited rest := by
  have hshort := popAcc_shortens h
  rw [delimit, undelimited, delimitFrom_of_popAcc_some _ h, delimitFrom_enough rest _ (by omega)]
  exact ⟨rfl, rfl⟩

/-- Nothing is delimited in a resting accumulator, and all of it is kept. -/
theorem delimit_of_resting {s : Bytes} (h : Resting s) : delimit s = [] ∧ undelimited s = s :=
  delimit_of_popAcc_none (popAcc_of_resting h)

/-- What `G` leaves rests (R172). -/
theorem resting_undelimited (s : Bytes) : Resting (undelimited s) := by
  induction s using popAcc_induction with
  | none s rest h =>
    rw [(delimit_of_popAcc_none h).2]
    exact (popAcc_none h).1
  | some s c rest h ih => rwa [(delimit_of_popAcc_some h).2]

/-- What `G` leaves is an end of the stream. -/
theorem undelimited_suffix (s : Bytes) : undelimited s <:+ s := by
  have hpop (s : Bytes) := popAcc_suffix s
  induction s using popAcc_induction with
  | none s rest h =>
    rw [(delimit_of_popAcc_none h).2]
    simpa only [h] using hpop s
  | some s c rest h ih =>
    rw [(delimit_of_popAcc_some h).2]
    exact ih.trans (by simpa only [h] using hpop s)

/-- Nothing is left of a stream that ends with an end marker. -/
theorem undelimited_eq_nil {s : Bytes} (hend : s.getLast? = some endMarker) : undelimited s = [] := by
  obtain h | ⟨-, hno⟩ := resting_undelimited s
  · exact h
  · by_contra hne
    obtain ⟨pre, hpre⟩ := undelimited_suffix s
    rw [← hpre, List.getLast?_append_of_ne_nil _ hne] at hend
    exact hno (List.mem_of_getLast? hend)

/-- What `G` finds is of the candidate's shape and stands in the stream (R173). -/
theorem shape_of_mem_delimit {s : Bytes} : ∀ c ∈ delimit s, CandidateShape c ∧ c <:+: s := by
  induction s using popAcc_induction with
  | none s rest h => simp [(delimit_of_popAcc_none h).1]
  | some s c rest h ih =>
    obtain ⟨hc, g, rfl, -⟩ := popAcc_some h
    rw [(delimit_of_popAcc_some h).1]
    rintro c' (_ | ⟨_, hc'⟩)
    · exact ⟨hc, List.infix_append g c rest⟩
    · obtain ⟨hshape, hin⟩ := ih c' hc'
      exact ⟨hshape, hin.trans (List.suffix_append (g ++ c) rest).isInfix⟩

/-- Noise before a stream is discarded. -/
theorem popAcc_noise {g : Bytes} (t : Bytes) (hg : startMarker ∉ g) : popAcc (g ++ t) = popAcc t := by
  obtain hs | ⟨g', b, rfl, hg', hb⟩ | ⟨g', b, r, rfl, hg', hb⟩ := acc_cases t
  · rw [popAcc_no_start hs, popAcc_no_start (by simp [hg, hs])]
  · rw [popAcc_no_end hg' hb, ← List.append_assoc, popAcc_no_end (by simp [hg, hg']) hb]
  · rw [popAcc_frame hg' hb, ← List.append_assoc, popAcc_frame (by simp [hg, hg']) hb]

theorem delimit_noise {g : Bytes} (t : Bytes) (hg : startMarker ∉ g) :
    delimit (g ++ t) = delimit t ∧ undelimited (g ++ t) = undelimited t := by
  have hnoise := popAcc_noise t hg
  rcases h : popAcc t with ⟨_ | c, rest⟩ <;> rw [h] at hnoise
  · obtain ⟨hd, hu⟩ := delimit_of_popAcc_none h
    obtain ⟨hd', hu'⟩ := delimit_of_popAcc_none hnoise
    exact ⟨hd'.trans hd.symm, hu'.trans hu.symm⟩
  · obtain ⟨hd, hu⟩ := delimit_of_popAcc_some h
    obtain ⟨hd', hu'⟩ := delimit_of_popAcc_some hnoise
    exact ⟨hd'.trans hd.symm, hu'.trans hu.symm⟩

/-- Bytes that come later do not change the candidate found. -/
theorem popAcc_append_of_some {s c rest : Bytes} (t : Bytes) (h : popAcc s = (some c, rest)) :
    popAcc (s ++ t) = (some c, rest ++ t) := by
  obtain hs | ⟨g, b, rfl, hg, hb⟩ | ⟨g, b, r, rfl, hg, hb⟩ := acc_cases s
  · simp [popAcc_no_start hs] at h
  · simp [popAcc_no_end hg hb] at h
  · obtain ⟨rfl, rfl⟩ : startMarker :: (b ++ [endMarker]) = c ∧ r = rest := by simpa [popAcc_frame hg hb] using h
    simpa using popAcc_frame (r := r ++ t) hg hb

/-- `G` at a chunk boundary: what it finds in the first part, then what it finds in what that leaves and the second. -/
theorem delimit_append (s t : Bytes) : delimit (s ++ t) = delimit s ++ delimit (undelimited s ++ t) ∧
    undelimited (s ++ t) = undelimited (undelimited s ++ t) := by
  induction s using popAcc_induction with
  | none s rest h =>
    obtain ⟨hd, hu⟩ := delimit_of_popAcc_none h
    obtain ⟨-, g, rfl, hg⟩ := popAcc_none h
    rw [hd, hu, List.append_assoc]
    exact delimit_noise (rest ++ t) hg
  | some s c rest h ih =>
    obtain ⟨hd, hu⟩ := delimit_of_popAcc_some h
    obtain ⟨hd', hu'⟩ := delimit_of_popAcc_some (popAcc_append_of_some t h)
    rw [hd, hu, hd', hu', ih.1, ih.2]
    exact ⟨rfl, rfl⟩

/-- The candidate's shape (R173), written out. -/
theorem candidateShape_iff {c : Bytes} :
    CandidateShape c ↔ ∃ b : Bytes, endMarker ∉ b ∧ c = startMarker :: (b ++ [endMarker]) := by
  constructor
  · rintro ⟨hlen, hstart, hend, hno⟩
    obtain ⟨u, rfl⟩ := List.getLast?_eq_some_iff.mp hend
    rw [List.dropLast_concat] at hno
    cases u with
    | nil => simp at hlen
    | cons x b =>
      obtain rfl : x = startMarker := by simpa using hstart
      exact ⟨b, fun hb => hno (List.mem_cons_of_mem _ hb), rfl⟩
  · rintro ⟨b, hb, rfl⟩
    exact candidateShape_frame hb

/-- A sequence of the candidate's shape after noise: `G` finds it, and leaves nothing. -/
theorem delimit_of_shape {g f : Bytes} (hg : startMarker ∉ g) (hf : CandidateShape f) :
    delimit (g ++ f) = [f] ∧ undelimited (g ++ f) = [] := by
  obtain ⟨b, hb, rfl⟩ := candidateShape_iff.mp hf
  obtain ⟨hd, hu⟩ := delimit_of_popAcc_some (popAcc_frame (r := []) hg hb)
  obtain ⟨hd', hu'⟩ := delimit_of_resting (.inl rfl)
  exact ⟨hd.trans (congrArg _ hd'), hu.trans hu'⟩

end Sys2Proof.Machine
end

section
/-! 44_receive.md: the receive path (R190 to R196), in the terms of `G`; the accumulator's operations (R55, R170). -/

namespace Sys2Proof.Machine

/-- PARSE does not fail on a candidate that passes the two tests (R193). -/
theorem receiveCandidate_eq (c : Bytes) :
    receiveCandidate c = if validateFrame c && decide (c.length = 26) then some (snapshotOf c) else none := by
  by_cases h : validateFrame c = true ∧ c.length = rspLen
  · obtain ⟨hvalid, hlen⟩ := h
    have hshape : isReadallShape c = true := by simp [isReadallShape, hlen]
    have h26 : c.length = 26 := hlen
    simp [receiveCandidate, hvalid, hshape, h26, parseFrame_of_valid hvalid hlen.ge]
  · have h' : ¬(validateFrame c = true ∧ c.length = 26) := h
    have hshape : ¬(validateFrame c = true ∧ isReadallShape c = true) := by simpa [isReadallShape] using h
    rw [receiveCandidate, if_neg (by simpa using hshape), if_neg (by simpa using h')]

theorem deliver_nil : deliver [] = [] := rfl

theorem deliver_cons (c : Bytes) (l : List Bytes) : deliver (c :: l) = (receiveCandidate c).toList ++ deliver l := by
  rw [receiveCandidate_eq, deliver, deliver, List.filter_cons]
  split <;> simp

theorem deliver_append (l m : List Bytes) : deliver (l ++ m) = deliver l ++ deliver m := by
  simp [deliver]

/-- Candidates of another length than a response's are dropped (R191, D12). -/
theorem deliver_eq_nil {l : List Bytes} (h : ∀ c ∈ l, c.length ≠ 26) : deliver l = [] := by
  rw [deliver, List.map_eq_nil_iff, List.filter_eq_nil_iff]
  intro c hc
  simp [h c hc]

/-- A valid response alone. -/
theorem deliver_singleton {f : Bytes} (hvalid : validateFrame f = true) (hlen : f.length = 26) :
    deliver [f] = [snapshotOf f] := by
  simp [deliver, hvalid, hlen]

/-- RX.STEP's loop delivers what `G` finds, and leaves what it leaves. -/
theorem rxDrain_eq (s : Bytes) : ∀ k, s.length < k → rxDrain k s = (deliver (delimit s), undelimited s) := by
  induction s using popAcc_induction with
  | none s rest h =>
    intro k hk
    obtain ⟨k, rfl⟩ := Nat.exists_eq_succ_of_ne_zero (Nat.ne_zero_of_lt hk)
    obtain ⟨hd, hu⟩ := delimit_of_popAcc_none h
    simp only [rxDrain, h, hd, hu, deliver_nil]
  | some s c rest h ih =>
    intro k hk
    obtain ⟨k, rfl⟩ := Nat.exists_eq_succ_of_ne_zero (Nat.ne_zero_of_lt hk)
    have hshort := popAcc_shortens h
    obtain ⟨hd, hu⟩ := delimit_of_popAcc_some h
    simp only [rxDrain, h, hd, hu, ih k (by omega), deliver_cons]

/-- The chunk `c` does not exceed the capacity of `s` (R55). -/
def Fits (s : State) (c : Bytes) : Prop := ∀ n, s.params.accCap = some n → s.acc.length + c.length ≤ n

theorem fits_iff (s : State) (c : Bytes) : fits s.params.accCap s.acc c = true ↔ Fits s c := by
  cases h : s.params.accCap <;> simp [fits, Fits, h]

/-- An unbounded accumulator takes every chunk. -/
theorem fits_of_unbounded {s : State} (c : Bytes) (h : s.params.accCap = none) : Fits s c := by
  simp [Fits, h]

/-- What RX.STEP of `c` leaves `s` in: the snapshots of what `G` finds in the accumulator and the chunk, and what it
leaves of them. -/
def received (c : Bytes) (s : State) : State :=
  record (.snapshots (deliver (delimit (s.acc ++ c)))) (withAcc (undelimited (s.acc ++ c)) s)

/-- RX.STEP of a running block whose capacity is not exceeded (R190). -/
theorem exec_rxStep {s : State} {c : Bytes} (hrun : s.run = .running) (hfit : Fits s c) :
    exec (.rxStep c) s = .next (received c s) := by
  rw [exec, execRxStep, whenRunning_of_running hrun, receiveChunk, if_pos ((fits_iff s c).mpr hfit)]
  simp only [rxDrain_eq _ _ (Nat.lt_succ_self _)]
  rfl

/-- X.PUSH of a running block whose capacity is not exceeded (R170). -/
theorem exec_xPush {s : State} {c : Bytes} (hrun : s.run = .running) (hfit : Fits s c) :
    exec (.xPush c) s = .next (record .done (withAcc (s.acc ++ c) s)) := by
  rw [exec, execXPush, whenRunning_of_running hrun, pushChunk, if_pos ((fits_iff s c).mpr hfit)]

/-- Settles O36: the chunk fits, so it is appended. -/
theorem pushAppendsTheChunk : Obligations.PushAppendsTheChunk :=
  ⟨fun _ _ => rfl, fun _ _ hrun hfit => exec_xPush hrun hfit⟩

/-- Settles O37: X.PUSH, RX.STEP and the wire formats test the capacity before any change. -/
theorem overflowFaultsBeforeAnyChange : Obligations.OverflowFaultsBeforeAnyChange := by
  intro s c n i hrun hcap hlen hi
  have hfit : ¬fits s.params.accCap s.acc c = true := by
    rw [fits_iff]
    exact fun h => (h n hcap).not_gt hlen
  have hrx : exec (.rxStep c) s = .next (enterFault .accOverflow s) := by
    rw [exec, execRxStep, whenRunning_of_running hrun, receiveChunk, if_neg hfit]
  obtain rfl | rfl | hf := hi
  · rw [exec, execXPush, whenRunning_of_running hrun, pushChunk, if_neg hfit]
    rfl
  · exact hrx
  · rw [exec_eq_exec_rxStep hf]
    exact hrx

/-- Settles O42: RX.STEP's loop is `deliver` of `G`, and what `G` leaves rests. -/
theorem rxStepDeliversTheDelimitedStream : Obligations.RxStepDeliversTheDelimitedStream :=
  ⟨fun _ _ => rfl, fun _ _ hrun hfit => ⟨exec_rxStep hrun hfit, resting_undelimited _⟩⟩

/-- Settles O48: a wire format is RX.STEP of its bytes. -/
theorem wireFramesAreReceived : Obligations.WireFramesAreReceived := by
  intro i s f hf hrun hfit
  rw [exec_eq_exec_rxStep hf]
  exact exec_rxStep hrun hfit

/-- A chunk of which nothing is left and nothing delivered. -/
theorem received_nothing {s : State} {c : Bytes} (hleft : undelimited (s.acc ++ c) = [])
    (hshort : ∀ g ∈ delimit (s.acc ++ c), g.length ≠ 26) :
    received c s = { s with acc := [], results := s.results ++ [.snapshots []] } := by
  rw [received, hleft, deliver_eq_nil hshort]
  rfl

/-- Every wire format but the response is shorter than a response. -/
theorem command_bytes {i : Instr} {f : Bytes} (hf : i.frameBytes = some f) (hi : mnemonicOf i ≠ "WIRE.RSP") :
    f.length < 26 ∧ f.getLast? = some endMarker := by
  cases i with
  | wireRsp => exact absurd rfl hi
  | wireReadall | wireSetv1 | wireSetv2 | wireSeti1 | wireSeti2 | wireSetout | wireSetser | wireSetpar =>
    cases hf
    exact ⟨by simp [setBytes], rfl⟩
  | _ => cases hf

/-- Settles O49: what `G` finds in a command is no longer than the command, and its end marker leaves nothing. -/
theorem echoedCommandsAreDropped : Obligations.EchoedCommandsAreDropped := by
  intro i s f hf hi hrun hacc hcap
  obtain ⟨hlen, hend⟩ := command_bytes hf hi
  rw [exec_eq_exec_rxStep hf, exec_rxStep hrun (fits_of_unbounded f hcap), received_nothing]
  · rw [← hacc]
  · simpa only [hacc, List.nil_append] using undelimited_eq_nil hend
  · intro g hg h26
    have hle := (shape_of_mem_delimit g (by simpa only [hacc, List.nil_append] using hg)).2.length_le
    omega

/-- A response that can be delivered is of the candidate's shape. -/
theorem Deliverable.candidateShape {f : Bytes} (h : Deliverable f) : CandidateShape f := by
  obtain ⟨hvalid, hlen, hclean⟩ := h
  obtain ⟨-, hstart, hend, -⟩ := validateFrame_iff_ends.mp hvalid
  exact ⟨by omega, hstart, hend, hclean⟩

/-- A response that can be delivered, after noise, is. -/
theorem exec_rxStep_deliverable {s : State} {f : Bytes} (hrun : s.run = .running) (hcap : s.params.accCap = none)
    (hacc : startMarker ∉ s.acc) (hf : Deliverable f) :
    exec (.rxStep f) s = .next { s with acc := [], results := s.results ++ [.snapshots [snapshotOf f]] } := by
  obtain ⟨hd, hu⟩ := delimit_of_shape hacc hf.candidateShape
  obtain ⟨hvalid, hlen, -⟩ := hf
  rw [exec_rxStep hrun (fits_of_unbounded f hcap), received, hd, hu, deliver_singleton hvalid hlen]
  rfl

/-- Settles O45: the response is delivered as its snapshot, whose fields are those written out. -/
theorem cleanResponseIsDelivered : Obligations.CleanResponseIsDelivered := by
  intro s r hrun hcap hacc hr
  refine ⟨?_, rfl⟩
  rw [exec_eq_exec_rxStep rfl, exec_rxStep_deliverable hrun hcap hacc hr, snapshotOf_rspBytes]
  rfl

/-- A response with an early end marker, delimited on its own: nothing is delivered of it, and nothing left. -/
theorem delimit_of_early_end {f : Bytes} (hvalid : validateFrame f = true) (hlen : f.length = 26)
    (hearly : endMarker ∈ f.dropLast) : (∀ c ∈ delimit f, c.length ≠ 26) ∧ undelimited f = [] := by
  obtain ⟨-, -, hend, -⟩ := validateFrame_iff_ends.mp hvalid
  refine ⟨fun c hc h26 => ?_, undelimited_eq_nil hend⟩
  obtain ⟨⟨-, -, -, hclean⟩, hin⟩ := shape_of_mem_delimit c hc
  obtain rfl := hin.eq_of_length (h26.trans hlen.symm)
  exact hclean hearly

/-- Settles O46: the pieces of the response are too short, and what follows it is delimited as if alone. -/
theorem responseWithEarlyEndMarkerIsLost : Obligations.ResponseWithEarlyEndMarkerIsLost := by
  intro s f hrun hacc hcap hvalid hlen hearly
  obtain ⟨hshort, hleft⟩ := delimit_of_early_end hvalid hlen hearly
  refine ⟨?_, fun g => ?_⟩
  · rw [exec_rxStep hrun (fits_of_unbounded f hcap), received_nothing, ← hacc]
    · simpa only [hacc, List.nil_append] using hleft
    · simpa only [hacc, List.nil_append] using hshort
  · obtain ⟨hd, hu⟩ := delimit_append f g
    rw [exec_rxStep hrun (fits_of_unbounded _ hcap), exec_rxStep hrun (fits_of_unbounded g hcap), received, received,
      hacc, List.nil_append, List.nil_append, hd, hu, hleft, deliver_append, deliver_eq_nil hshort]
    rfl

/-- A frame begun and not ended swallows the next clean frame: the two are one candidate. -/
theorem candidateShape_append {a f : Bytes} (hstart : a.head? = some startMarker) (hno : endMarker ∉ a)
    (hf : CandidateShape f) : CandidateShape (a ++ f) := by
  obtain ⟨b, hb, rfl⟩ := candidateShape_iff.mp hf
  obtain ⟨a, rfl⟩ := List.head?_eq_some_iff.mp hstart
  refine candidateShape_iff.mpr ⟨a ++ startMarker :: b, ?_, by simp⟩
  simp only [List.mem_append, not_or]
  exact ⟨fun ha => hno (List.mem_cons_of_mem _ ha), endMarker_not_mem_start hb⟩

/-- Settles O47: the swallowing candidate is too long for a response; the next response meets an empty accumulator. -/
theorem stalePartialFrameLosesOneResponse : Obligations.StalePartialFrameLosesOneResponse := by
  intro s f g hrun hcap hstart hno hf hg
  obtain ⟨hd, hu⟩ := delimit_of_shape (g := []) (by simp) (candidateShape_append hstart hno hf.candidateShape)
  rw [List.nil_append] at hd hu
  refine ⟨_, rfl, ?_, ?_⟩
  · rw [exec_rxStep hrun (fits_of_unbounded f hcap), received_nothing hu]
    have hpos : s.acc.length ≠ 0 := by
      intro h0
      simp [List.length_eq_zero_iff.mp h0] at hstart
    obtain ⟨-, hlen, -⟩ := hf
    simp only [hd, List.mem_singleton, forall_eq, List.length_append]
    omega
  · exact exec_rxStep_deliverable hrun hcap List.not_mem_nil hg

end Sys2Proof.Machine
end

section
/-! Runs of the receive side: the stream law (R174), RX.STEP as a composition (R82), and the delivered stream (R195).
Along a run of X.PUSH and X.POP, what `G` finds in the bytes pushed so far is what was popped and what it finds in the
accumulator; a byte that comes later changes nothing of this. -/

namespace Sys2Proof.Machine

/-- A run that takes a next state takes a first step to one. -/
theorem runFor_succ_iff {k : Nat} {s t : State} :
    runFor (k + 1) s = .next t ↔ ∃ u, step s = .next u ∧ runFor k u = .next t := by
  cases h : step s with
  | next u =>
    have hcore : Sys2Proof.core.step s = .next u := h
    simp [runFor, Host.Core.run, hcore]
  | _ r =>
    have hcore := show Sys2Proof.core.step s = _ from h
    simp [runFor, Host.Core.run, hcore]

/-- The step of a block presented with an operation performs it. -/
theorem step_of_encode {s : State} {i : Instr} {rest : List HostEvent} (hf : i.frameBytes = none)
    (hp : s.pending = encode i :: rest) : step s = exec i { s with pending := rest } :=
  stepRunsTheDecodedInstruction s (encode i) rest i hp (requestsRoundTrip s.params i hf)

/-- A NONE returned last says that the accumulator rests (R172). -/
def RestsAfterNone (s : State) : Prop := s.results.getLast? = some (.candidate none) → Resting s.acc

/-- The running block `t` is `s` with the bytes `x` pushed and the results `rs` returned: whatever bytes `y` come after
`x`, `G` finds the candidates of `rs` and what it finds in the accumulator of `t`. -/
structure Extracts (s : State) (x : Bytes) (rs : List Result) (t : State) : Prop where
  run : t.run = .running
  params : t.params = s.params
  results : t.results = s.results ++ rs
  rests : RestsAfterNone t
  found : ∀ y, delimit (s.acc ++ (x ++ y)) = candidatesOf rs ++ delimit (t.acc ++ y)
  left : ∀ y, undelimited (s.acc ++ (x ++ y)) = undelimited (t.acc ++ y)

theorem Extracts.refl {s : State} (hrun : s.run = .running) (hrests : RestsAfterNone s) : Extracts s [] [] s :=
  ⟨hrun, rfl, (List.append_nil _).symm, hrests, fun _ => rfl, fun _ => rfl⟩

theorem candidatesOf_append (rs rs' : List Result) :
    candidatesOf (rs ++ rs') = candidatesOf rs ++ candidatesOf rs' := by
  simp [candidatesOf]

theorem Extracts.trans {s t u : State} {x x' : Bytes} {rs rs' : List Result} (h : Extracts s x rs t)
    (h' : Extracts t x' rs' u) : Extracts s (x ++ x') (rs ++ rs') u where
  run := h'.run
  params := h'.params.trans h.params
  results := by rw [h'.results, h.results, List.append_assoc]
  rests := h'.rests
  found y := by rw [List.append_assoc, h.found, h'.found, candidatesOf_append, List.append_assoc]
  left y := by rw [List.append_assoc, h.left, h'.left]

theorem extracts_push {s : State} (c : Bytes) (hrun : s.run = .running) :
    Extracts s c [.done] (record .done (withAcc (s.acc ++ c) s)) where
  run := hrun
  params := rfl
  results := rfl
  rests h := by simp at h
  found y := by simp [candidatesOf]
  left y := by simp

theorem extracts_pop {s : State} (hrun : s.run = .running) :
    Extracts s [] [.candidate (popAcc s.acc).1]
      (record (.candidate (popAcc s.acc).1) (withAcc (popAcc s.acc).2 s)) := by
  rcases h : popAcc s.acc with ⟨_ | c, rest⟩
  · obtain ⟨hrest, g, hg, hno⟩ := popAcc_none h
    refine ⟨hrun, rfl, rfl, fun _ => hrest, fun y => ?_, fun y => ?_⟩
    · rw [List.nil_append, hg, List.append_assoc]
      exact (delimit_noise (rest ++ y) hno).1
    · rw [List.nil_append, hg, List.append_assoc]
      exact (delimit_noise (rest ++ y) hno).2
  · refine ⟨hrun, rfl, rfl, fun hlast => by simp at hlast, fun y => ?_, fun y => ?_⟩
    · exact (delimit_of_popAcc_some (popAcc_append_of_some y h)).1
    · exact (delimit_of_popAcc_some (popAcc_append_of_some y h)).2

/-- The operation of a stream request: X.POP, or X.PUSH of a chunk. -/
def streamInstr : Option Bytes → Instr
  | none => .xPop
  | some c => .xPush c

/-- One step of a stream: X.PUSH needs room, X.POP needs nothing. -/
theorem step_stream {s : State} {o : Option Bytes} {rest : List HostEvent} (hrun : s.run = .running)
    (hfit : ∀ c, o = some c → Fits s c) (hp : s.pending = encode (streamInstr o) :: rest) :
    ∃ t r, step s = .next t ∧ t.pending = rest ∧ Extracts s (o.getD []) [r] t := by
  cases o with
  | none =>
    obtain ⟨hr, hpar, hres, hrests, hfound, hleft⟩ := extracts_pop (s := { s with pending := rest }) hrun
    exact ⟨_, _, (step_of_encode rfl hp).trans (whenRunning_of_running hrun), rfl,
      hr, hpar, hres, hrests, hfound, hleft⟩
  | some c =>
    obtain ⟨hr, hpar, hres, hrests, hfound, hleft⟩ := extracts_push (s := { s with pending := rest }) c hrun
    exact ⟨_, _, (step_of_encode rfl hp).trans (exec_xPush (s := { s with pending := rest }) hrun (hfit c rfl)), rfl,
      hr, hpar, hres, hrests, hfound, hleft⟩

/-- A list of stream requests runs to the end, if the pushes among them find an unbounded accumulator. -/
theorem run_stream {ops : List (Option Bytes)} {rest : List HostEvent} : ∀ {s : State}, s.run = .running →
    RestsAfterNone s → (∀ c, some c ∈ ops → s.params.accCap = none) →
    s.pending = ops.map (fun o => encode (streamInstr o)) ++ rest →
    ∃ t rs, runFor ops.length s = .next t ∧ t.pending = rest ∧ Extracts s (ops.flatMap (·.getD [])) rs t := by
  induction ops with
  | nil => exact fun hrun hrests _ hp => ⟨_, [], rfl, hp, .refl hrun hrests⟩
  | cons o ops ih =>
    intro s hrun hrests hcap hp
    have hfit : ∀ c, o = some c → Fits s c := by
      rintro c rfl
      exact fits_of_unbounded c (hcap c List.mem_cons_self)
    obtain ⟨u, r, hstep, hpu, hu⟩ := step_stream hrun hfit hp
    have hcapu : ∀ c, some c ∈ ops → u.params.accCap = none := fun c hc => by
      rw [hu.params]
      exact hcap c (List.mem_cons_of_mem _ hc)
    obtain ⟨t, rs, ht, hpt, hut⟩ := ih hu.run hu.rests hcapu hpu
    exact ⟨t, [r] ++ rs, runFor_succ_iff.mpr ⟨u, hstep, ht⟩, hpt, hu.trans hut⟩

/-- At the end of a stream: what was popped, and what `G` still finds in the accumulator. -/
theorem Extracts.delimit_eq {s t : State} {x : Bytes} {rs : List Result} (h : Extracts s x rs t) :
    delimit (s.acc ++ x) = candidatesOf rs ++ delimit t.acc := by simpa using h.found []

/-- When NONE is returned last, everything `G` finds was popped, and the accumulator is what `G` leaves. -/
theorem Extracts.of_none {s t : State} {x : Bytes} {rs : List Result} (h : Extracts s x rs t)
    (hlast : t.results.getLast? = some (.candidate none)) :
    delimit (s.acc ++ x) = candidatesOf rs ∧ undelimited (s.acc ++ x) = t.acc := by
  obtain ⟨hd, hu⟩ := delimit_of_resting (h.rests hlast)
  refine ⟨by rw [h.delimit_eq, hd, List.append_nil], ?_⟩
  simpa [hu] using h.left []

/-- Settles O41: an empty accumulator rests, so the run extracts the stream. -/
theorem streamLaw : Obligations.StreamLaw := by
  intro s ops rest hrun hacc hcap hp
  have hp : s.pending = ops.map (fun o => encode (streamInstr o)) ++ rest :=
    hp.trans (congrArg (· ++ rest) (List.map_congr_left fun o _ => by cases o <;> rfl))
  obtain ⟨t, rs, hrun, hpt, ht⟩ := run_stream hrun (fun _ => .inl hacc) (fun _ _ => hcap) hp
  have hfound := ht.delimit_eq
  rw [hacc, List.nil_append] at hfound
  refine ⟨t, rs, hrun, ht.results, hpt, ⟨_, hfound.symm⟩, fun hlast => ?_⟩
  have hlast : t.results.getLast? = some (.candidate none) := by simp [ht.results, List.getLast?_append, hlast]
  simpa [hacc] using (ht.of_none hlast).1.symm

/-- A push that is followed by pops up to a NONE did not overflow. -/
theorem push_of_run {s t : State} {c : Bytes} {k : Nat} {evs : List HostEvent}
    (hp : s.pending = encode (.xPush c) :: evs) (hrun : runFor (k + 1) s = .next t)
    (hlast : t.results.getLast? = some (.candidate none)) :
    s.run = .running ∧ Fits s c ∧
      runFor k (record .done (withAcc (s.acc ++ c) { s with pending := evs })) = .next t := by
  obtain ⟨u, hstep, hk⟩ := runFor_succ_iff.mp hrun
  rw [step_of_encode rfl hp] at hstep
  obtain ⟨hs, rfl⟩ := whenRunning_next hstep
  obtain ⟨hfit, hpush⟩ | ⟨-, hpush⟩ := pushChunk_cases c { s with pending := evs }
  · rw [hpush] at hk
    exact ⟨hs, (fits_iff s c).mp hfit, hk⟩
  · rw [hpush] at hk
    cases k with
    | zero =>
      cases hk
      simp at hlast
    | succ k =>
      obtain ⟨v, hv, -⟩ := runFor_succ_iff.mp hk
      rw [(faultedBlockHasNoStep _ _ rfl).2] at hv
      cases hv

/-- Settles O43: the push and the pops extract the chunk; RX.STEP delivers and leaves the same. -/
theorem rxStepIsPushThenPops : Obligations.RxStepIsPushThenPops := by
  intro s t c k rest hp hrun hlast
  obtain ⟨hs, hfit, hpops⟩ := push_of_run hp hrun hlast
  have hpush := extracts_push (s := { s with pending := List.replicate k (encode .xPop) ++ rest }) c hs
  obtain ⟨t', rs, ht', -, hrs⟩ := run_stream (ops := List.replicate k none) (rest := rest) hpush.run hpush.rests
    (by simp) (by simp [streamInstr])
  obtain rfl : t' = t := by simpa [hpops] using ht'.symm
  obtain ⟨hd, hu⟩ := (hpush.trans hrs).of_none hlast
  have hflat : (List.replicate k (none : Option Bytes)).flatMap (·.getD []) = [] := by simp
  simp only [hflat, List.append_nil] at hd hu
  refine ⟨[.done] ++ rs, by simpa using hrs.results, ?_⟩
  refine (exec_rxStep (s := { s with pending := rest }) hs hfit).trans ?_
  simp only [received, hd, hu]
  rfl

/-- Chunks received one after the other from a resting accumulator deliver what their concatenation holds. -/
theorem run_chunks {chunks : List Bytes} {rest : List HostEvent} : ∀ {s : State}, s.run = .running →
    Resting s.acc → s.params.accCap = none → s.pending = chunks.map (fun c => encode (.rxStep c)) ++ rest →
    ∃ t rs, runFor chunks.length s = .next t ∧ t.results = s.results ++ rs ∧ t.pending = rest ∧
      deliveredOf rs = deliver (delimit (s.acc ++ chunks.flatten)) ∧ Resting t.acc := by
  induction chunks with
  | nil =>
    intro s hrun hrests hcap hp
    refine ⟨s, [], rfl, by simp, hp, ?_, hrests⟩
    rw [List.flatten_nil, List.append_nil, (delimit_of_resting hrests).1]
    rfl
  | cons c chunks ih =>
    intro s hrun hrests hcap hp
    rw [List.map_cons, List.cons_append] at hp
    generalize hevs : chunks.map (fun c => encode (.rxStep c)) ++ rest = evs at hp
    have hstep : step s = .next (received c { s with pending := evs }) :=
      (step_of_encode rfl hp).trans (exec_rxStep hrun (fits_of_unbounded c hcap))
    obtain ⟨t, rs, ht, hres, hpt, hdel, htrests⟩ :=
      ih (s := received c { s with pending := evs }) hrun (resting_undelimited _) hcap hevs.symm
    refine ⟨t, .snapshots (deliver (delimit (s.acc ++ c))) :: rs, runFor_succ_iff.mpr ⟨_, hstep, ht⟩, ?_, hpt, ?_,
      htrests⟩
    · simp [hres, received]
    · rw [List.flatten_cons, ← List.append_assoc, (delimit_append (s.acc ++ c) _).1, deliver_append]
      exact congrArg _ hdel

/-- Settles O44: an empty accumulator rests. -/
theorem deliveredStreamIgnoresChunking : Obligations.DeliveredStreamIgnoresChunking := by
  intro s chunks rest hrun hacc hcap hp
  simpa [hacc] using run_chunks hrun (.inl hacc) hcap hp

end Sys2Proof.Machine
end
